-- ==== Sys2Proof/Word.lean ====
section
/-! DEFINITION. Word.lean: the names of the machine's data widths (00_scope.md R9). -/

namespace Sys2Proof

/-- A 32-bit word: every register but the FPRs and the time base (R9). -/
abbrev Word := BitVec 32

/-- A 64-bit double word: an FPR, the time base (R9, R31, R38). -/
abbrev Dword := BitVec 64

/-- A byte, the unit of addressing (R62). -/
abbrev Byte := BitVec 8

/-- The number of a GPR or an FPR (R30, R31). -/
abbrev Reg := BitVec 5

end Sys2Proof
end

