-- ==== Sys2Proof/Syntax.lean ====
section
/-! DEFINITION. Syntax.lean: the instructions of the 604e, one constructor per row of the opcode table
(30_encoding.md R260 to R284), with every operand bit the row has.

A register number, a CR bit number and an immediate are bit vectors of the width of their field. A single
bit is a Bool. `spr` and `tbr` hold the number with its halves already put in order (R277). `rc` is bit 31:
the record bit where the instruction has a record form, and elsewhere, where R293 or R295 says what the 604e
does with a wrong bit 31, that bit. -/

namespace Sys2Proof

/-- The instructions of the PowerPC 604e. -/
inductive Instr where
  /-- `addi`, D-form, R322. -/
  | addi (rD : Reg) (rA : Reg) (simm : BitVec 16)
  /-- `addis`, D-form, R323. -/
  | addis (rD : Reg) (rA : Reg) (simm : BitVec 16)
  /-- `addic`, D-form, R326. -/
  | addic (rD : Reg) (rA : Reg) (simm : BitVec 16)
  /-- `addic.`, D-form, R327. -/
  | addicRec (rD : Reg) (rA : Reg) (simm : BitVec 16)
  /-- `subfic`, D-form, R328. -/
  | subfic (rD : Reg) (rA : Reg) (simm : BitVec 16)
  /-- `mulli`, D-form, R338. -/
  | mulli (rD : Reg) (rA : Reg) (simm : BitVec 16)
  /-- `add`, XO-form, R324. -/
  | add (rD : Reg) (rA : Reg) (rB : Reg) (oe : Bool) (rc : Bool)
  /-- `subf`, XO-form, R325. -/
  | subf (rD : Reg) (rA : Reg) (rB : Reg) (oe : Bool) (rc : Bool)
  /-- `addc`, XO-form, R329. -/
  | addc (rD : Reg) (rA : Reg) (rB : Reg) (oe : Bool) (rc : Bool)
  /-- `subfc`, XO-form, R330. -/
  | subfc (rD : Reg) (rA : Reg) (rB : Reg) (oe : Bool) (rc : Bool)
  /-- `adde`, XO-form, R331. -/
  | adde (rD : Reg) (rA : Reg) (rB : Reg) (oe : Bool) (rc : Bool)
  /-- `subfe`, XO-form, R332. -/
  | subfe (rD : Reg) (rA : Reg) (rB : Reg) (oe : Bool) (rc : Bool)
  /-- `addme`, XO-form, R333. -/
  | addme (rD : Reg) (rA : Reg) (oe : Bool) (rc : Bool)
  /-- `subfme`, XO-form, R334. -/
  | subfme (rD : Reg) (rA : Reg) (oe : Bool) (rc : Bool)
  /-- `addze`, XO-form, R335. -/
  | addze (rD : Reg) (rA : Reg) (oe : Bool) (rc : Bool)
  /-- `subfze`, XO-form, R336. -/
  | subfze (rD : Reg) (rA : Reg) (oe : Bool) (rc : Bool)
  /-- `neg`, XO-form, R337. -/
  | neg (rD : Reg) (rA : Reg) (oe : Bool) (rc : Bool)
  /-- `mullw`, XO-form, R339. -/
  | mullw (rD : Reg) (rA : Reg) (rB : Reg) (oe : Bool) (rc : Bool)
  /-- `mulhw`, XO-form, R340. -/
  | mulhw (rD : Reg) (rA : Reg) (rB : Reg) (rc : Bool)
  /-- `mulhwu`, XO-form, R341. -/
  | mulhwu (rD : Reg) (rA : Reg) (rB : Reg) (rc : Bool)
  /-- `divw`, XO-form, R342. -/
  | divw (rD : Reg) (rA : Reg) (rB : Reg) (oe : Bool) (rc : Bool)
  /-- `divwu`, XO-form, R343. -/
  | divwu (rD : Reg) (rA : Reg) (rB : Reg) (oe : Bool) (rc : Bool)
  /-- `cmpi`, D-form, R351. -/
  | cmpi (crfD : BitVec 3) (l : Bool) (rA : Reg) (simm : BitVec 16)
  /-- `cmp`, X-form, R352. -/
  | cmp (crfD : BitVec 3) (l : Bool) (rA : Reg) (rB : Reg)
  /-- `cmpli`, D-form, R353. -/
  | cmpli (crfD : BitVec 3) (l : Bool) (rA : Reg) (uimm : BitVec 16)
  /-- `cmpl`, X-form, R354. -/
  | cmpl (crfD : BitVec 3) (l : Bool) (rA : Reg) (rB : Reg)
  /-- `andi.`, D-form, R361. -/
  | andiRec (rS : Reg) (rA : Reg) (uimm : BitVec 16)
  /-- `andis.`, D-form, R362. -/
  | andisRec (rS : Reg) (rA : Reg) (uimm : BitVec 16)
  /-- `ori`, D-form, R363. -/
  | ori (rS : Reg) (rA : Reg) (uimm : BitVec 16)
  /-- `oris`, D-form, R364. -/
  | oris (rS : Reg) (rA : Reg) (uimm : BitVec 16)
  /-- `xori`, D-form, R365. -/
  | xori (rS : Reg) (rA : Reg) (uimm : BitVec 16)
  /-- `xoris`, D-form, R366. -/
  | xoris (rS : Reg) (rA : Reg) (uimm : BitVec 16)
  /-- `and`, X-form, R367. -/
  | and (rS : Reg) (rA : Reg) (rB : Reg) (rc : Bool)
  /-- `or`, X-form, R368. -/
  | or (rS : Reg) (rA : Reg) (rB : Reg) (rc : Bool)
  /-- `xor`, X-form, R369. -/
  | xor (rS : Reg) (rA : Reg) (rB : Reg) (rc : Bool)
  /-- `nand`, X-form, R370. -/
  | nand (rS : Reg) (rA : Reg) (rB : Reg) (rc : Bool)
  /-- `nor`, X-form, R371. -/
  | nor (rS : Reg) (rA : Reg) (rB : Reg) (rc : Bool)
  /-- `eqv`, X-form, R372. -/
  | eqv (rS : Reg) (rA : Reg) (rB : Reg) (rc : Bool)
  /-- `andc`, X-form, R373. -/
  | andc (rS : Reg) (rA : Reg) (rB : Reg) (rc : Bool)
  /-- `orc`, X-form, R374. -/
  | orc (rS : Reg) (rA : Reg) (rB : Reg) (rc : Bool)
  /-- `extsb`, X-form, R375. -/
  | extsb (rS : Reg) (rA : Reg) (rc : Bool)
  /-- `extsh`, X-form, R376. -/
  | extsh (rS : Reg) (rA : Reg) (rc : Bool)
  /-- `cntlzw`, X-form, R377. -/
  | cntlzw (rS : Reg) (rA : Reg) (rc : Bool)
  /-- `rlwinm`, M-form, R381. -/
  | rlwinm (rS : Reg) (rA : Reg) (sh : BitVec 5) (mb : BitVec 5) (me : BitVec 5) (rc : Bool)
  /-- `rlwnm`, M-form, R382. -/
  | rlwnm (rS : Reg) (rA : Reg) (rB : Reg) (mb : BitVec 5) (me : BitVec 5) (rc : Bool)
  /-- `rlwimi`, M-form, R383. -/
  | rlwimi (rS : Reg) (rA : Reg) (sh : BitVec 5) (mb : BitVec 5) (me : BitVec 5) (rc : Bool)
  /-- `slw`, X-form, R390. -/
  | slw (rS : Reg) (rA : Reg) (rB : Reg) (rc : Bool)
  /-- `srw`, X-form, R391. -/
  | srw (rS : Reg) (rA : Reg) (rB : Reg) (rc : Bool)
  /-- `srawi`, X-form, R392. -/
  | srawi (rS : Reg) (rA : Reg) (sh : BitVec 5) (rc : Bool)
  /-- `sraw`, X-form, R393. -/
  | sraw (rS : Reg) (rA : Reg) (rB : Reg) (rc : Bool)
  /-- `fadd`, A-form, R430. -/
  | fadd (frD : Reg) (frA : Reg) (frB : Reg) (rc : Bool)
  /-- `fadds`, A-form, R431. -/
  | fadds (frD : Reg) (frA : Reg) (frB : Reg) (rc : Bool)
  /-- `fsub`, A-form, R432. -/
  | fsub (frD : Reg) (frA : Reg) (frB : Reg) (rc : Bool)
  /-- `fsubs`, A-form, R433. -/
  | fsubs (frD : Reg) (frA : Reg) (frB : Reg) (rc : Bool)
  /-- `fmul`, A-form, R434. -/
  | fmul (frD : Reg) (frA : Reg) (frC : Reg) (rc : Bool)
  /-- `fmuls`, A-form, R435. -/
  | fmuls (frD : Reg) (frA : Reg) (frC : Reg) (rc : Bool)
  /-- `fdiv`, A-form, R436. -/
  | fdiv (frD : Reg) (frA : Reg) (frB : Reg) (rc : Bool)
  /-- `fdivs`, A-form, R437. -/
  | fdivs (frD : Reg) (frA : Reg) (frB : Reg) (rc : Bool)
  /-- `fres`, A-form, R438. -/
  | fres (frD : Reg) (frB : Reg) (rc : Bool)
  /-- `frsqrte`, A-form, R439. -/
  | frsqrte (frD : Reg) (frB : Reg) (rc : Bool)
  /-- `fsel`, A-form, R440. -/
  | fsel (frD : Reg) (frA : Reg) (frB : Reg) (frC : Reg) (rc : Bool)
  /-- `fmadd`, A-form, R441. -/
  | fmadd (frD : Reg) (frA : Reg) (frB : Reg) (frC : Reg) (rc : Bool)
  /-- `fmadds`, A-form, R442. -/
  | fmadds (frD : Reg) (frA : Reg) (frB : Reg) (frC : Reg) (rc : Bool)
  /-- `fmsub`, A-form, R443. -/
  | fmsub (frD : Reg) (frA : Reg) (frB : Reg) (frC : Reg) (rc : Bool)
  /-- `fmsubs`, A-form, R444. -/
  | fmsubs (frD : Reg) (frA : Reg) (frB : Reg) (frC : Reg) (rc : Bool)
  /-- `fnmadd`, A-form, R445. -/
  | fnmadd (frD : Reg) (frA : Reg) (frB : Reg) (frC : Reg) (rc : Bool)
  /-- `fnmadds`, A-form, R446. -/
  | fnmadds (frD : Reg) (frA : Reg) (frB : Reg) (frC : Reg) (rc : Bool)
  /-- `fnmsub`, A-form, R447. -/
  | fnmsub (frD : Reg) (frA : Reg) (frB : Reg) (frC : Reg) (rc : Bool)
  /-- `fnmsubs`, A-form, R448. -/
  | fnmsubs (frD : Reg) (frA : Reg) (frB : Reg) (frC : Reg) (rc : Bool)
  /-- `frsp`, X-form, R450. -/
  | frsp (frD : Reg) (frB : Reg) (rc : Bool)
  /-- `fctiw`, X-form, R451. -/
  | fctiw (frD : Reg) (frB : Reg) (rc : Bool)
  /-- `fctiwz`, X-form, R452. -/
  | fctiwz (frD : Reg) (frB : Reg) (rc : Bool)
  /-- `fcmpu`, X-form, R455. -/
  | fcmpu (crfD : BitVec 3) (frA : Reg) (frB : Reg) (rc : Bool)
  /-- `fcmpo`, X-form, R456. -/
  | fcmpo (crfD : BitVec 3) (frA : Reg) (frB : Reg) (rc : Bool)
  /-- `mffs`, X-form, R460. -/
  | mffs (frD : Reg) (rc : Bool)
  /-- `mcrfs`, X-form, R461. -/
  | mcrfs (crfD : BitVec 3) (crfS : BitVec 3)
  /-- `mtfsfi`, X-form, R462. -/
  | mtfsfi (crfD : BitVec 3) (imm : BitVec 4) (rc : Bool)
  /-- `mtfsf`, XFL-form, R463. -/
  | mtfsf (fm : BitVec 8) (frB : Reg) (rc : Bool)
  /-- `mtfsb0`, X-form, R464. -/
  | mtfsb0 (crbD : BitVec 5) (rc : Bool)
  /-- `mtfsb1`, X-form, R465. -/
  | mtfsb1 (crbD : BitVec 5) (rc : Bool)
  /-- `fmr`, X-form, R466. -/
  | fmr (frD : Reg) (frB : Reg) (rc : Bool)
  /-- `fneg`, X-form, R467. -/
  | fneg (frD : Reg) (frB : Reg) (rc : Bool)
  /-- `fabs`, X-form, R468. -/
  | fabs (frD : Reg) (frB : Reg) (rc : Bool)
  /-- `fnabs`, X-form, R469. -/
  | fnabs (frD : Reg) (frB : Reg) (rc : Bool)
  /-- `lbz`, D-form, R510. -/
  | lbz (rD : Reg) (rA : Reg) (d : BitVec 16)
  /-- `lbzx`, X-form, R511. -/
  | lbzx (rD : Reg) (rA : Reg) (rB : Reg) (rc : Bool)
  /-- `lbzu`, D-form, R512. -/
  | lbzu (rD : Reg) (rA : Reg) (d : BitVec 16)
  /-- `lbzux`, X-form, R513. -/
  | lbzux (rD : Reg) (rA : Reg) (rB : Reg) (rc : Bool)
  /-- `lhz`, D-form, R514. -/
  | lhz (rD : Reg) (rA : Reg) (d : BitVec 16)
  /-- `lhzx`, X-form, R515. -/
  | lhzx (rD : Reg) (rA : Reg) (rB : Reg) (rc : Bool)
  /-- `lhzu`, D-form, R516. -/
  | lhzu (rD : Reg) (rA : Reg) (d : BitVec 16)
  /-- `lhzux`, X-form, R517. -/
  | lhzux (rD : Reg) (rA : Reg) (rB : Reg) (rc : Bool)
  /-- `lha`, D-form, R518. -/
  | lha (rD : Reg) (rA : Reg) (d : BitVec 16)
  /-- `lhax`, X-form, R519. -/
  | lhax (rD : Reg) (rA : Reg) (rB : Reg) (rc : Bool)
  /-- `lhau`, D-form, R520. -/
  | lhau (rD : Reg) (rA : Reg) (d : BitVec 16)
  /-- `lhaux`, X-form, R521. -/
  | lhaux (rD : Reg) (rA : Reg) (rB : Reg) (rc : Bool)
  /-- `lwz`, D-form, R522. -/
  | lwz (rD : Reg) (rA : Reg) (d : BitVec 16)
  /-- `lwzx`, X-form, R523. -/
  | lwzx (rD : Reg) (rA : Reg) (rB : Reg) (rc : Bool)
  /-- `lwzu`, D-form, R524. -/
  | lwzu (rD : Reg) (rA : Reg) (d : BitVec 16)
  /-- `lwzux`, X-form, R525. -/
  | lwzux (rD : Reg) (rA : Reg) (rB : Reg) (rc : Bool)
  /-- `stb`, D-form, R530. -/
  | stb (rS : Reg) (rA : Reg) (d : BitVec 16)
  /-- `stbx`, X-form, R531. -/
  | stbx (rS : Reg) (rA : Reg) (rB : Reg) (rc : Bool)
  /-- `stbu`, D-form, R532. -/
  | stbu (rS : Reg) (rA : Reg) (d : BitVec 16)
  /-- `stbux`, X-form, R533. -/
  | stbux (rS : Reg) (rA : Reg) (rB : Reg) (rc : Bool)
  /-- `sth`, D-form, R534. -/
  | sth (rS : Reg) (rA : Reg) (d : BitVec 16)
  /-- `sthx`, X-form, R535. -/
  | sthx (rS : Reg) (rA : Reg) (rB : Reg) (rc : Bool)
  /-- `sthu`, D-form, R536. -/
  | sthu (rS : Reg) (rA : Reg) (d : BitVec 16)
  /-- `sthux`, X-form, R537. -/
  | sthux (rS : Reg) (rA : Reg) (rB : Reg) (rc : Bool)
  /-- `stw`, D-form, R538. -/
  | stw (rS : Reg) (rA : Reg) (d : BitVec 16)
  /-- `stwx`, X-form, R539. -/
  | stwx (rS : Reg) (rA : Reg) (rB : Reg) (rc : Bool)
  /-- `stwu`, D-form, R540. -/
  | stwu (rS : Reg) (rA : Reg) (d : BitVec 16)
  /-- `stwux`, X-form, R541. -/
  | stwux (rS : Reg) (rA : Reg) (rB : Reg) (rc : Bool)
  /-- `lhbrx`, X-form, R546. -/
  | lhbrx (rD : Reg) (rA : Reg) (rB : Reg) (rc : Bool)
  /-- `lwbrx`, X-form, R547. -/
  | lwbrx (rD : Reg) (rA : Reg) (rB : Reg) (rc : Bool)
  /-- `sthbrx`, X-form, R548. -/
  | sthbrx (rS : Reg) (rA : Reg) (rB : Reg) (rc : Bool)
  /-- `stwbrx`, X-form, R549. -/
  | stwbrx (rS : Reg) (rA : Reg) (rB : Reg) (rc : Bool)
  /-- `lmw`, D-form, R551. -/
  | lmw (rD : Reg) (rA : Reg) (d : BitVec 16)
  /-- `stmw`, D-form, R552. -/
  | stmw (rS : Reg) (rA : Reg) (d : BitVec 16)
  /-- `lswi`, X-form, R556. -/
  | lswi (rD : Reg) (rA : Reg) (nb : BitVec 5) (rc : Bool)
  /-- `lswx`, X-form, R557. -/
  | lswx (rD : Reg) (rA : Reg) (rB : Reg) (rc : Bool)
  /-- `stswi`, X-form, R558. -/
  | stswi (rS : Reg) (rA : Reg) (nb : BitVec 5) (rc : Bool)
  /-- `stswx`, X-form, R559. -/
  | stswx (rS : Reg) (rA : Reg) (rB : Reg) (rc : Bool)
  /-- `lfs`, D-form, R566. -/
  | lfs (frD : Reg) (rA : Reg) (d : BitVec 16)
  /-- `lfsx`, X-form, R567. -/
  | lfsx (frD : Reg) (rA : Reg) (rB : Reg) (rc : Bool)
  /-- `lfsu`, D-form, R568. -/
  | lfsu (frD : Reg) (rA : Reg) (d : BitVec 16)
  /-- `lfsux`, X-form, R569. -/
  | lfsux (frD : Reg) (rA : Reg) (rB : Reg) (rc : Bool)
  /-- `lfd`, D-form, R570. -/
  | lfd (frD : Reg) (rA : Reg) (d : BitVec 16)
  /-- `lfdx`, X-form, R571. -/
  | lfdx (frD : Reg) (rA : Reg) (rB : Reg) (rc : Bool)
  /-- `lfdu`, D-form, R572. -/
  | lfdu (frD : Reg) (rA : Reg) (d : BitVec 16)
  /-- `lfdux`, X-form, R573. -/
  | lfdux (frD : Reg) (rA : Reg) (rB : Reg) (rc : Bool)
  /-- `stfs`, D-form, R580. -/
  | stfs (frS : Reg) (rA : Reg) (d : BitVec 16)
  /-- `stfsx`, X-form, R581. -/
  | stfsx (frS : Reg) (rA : Reg) (rB : Reg) (rc : Bool)
  /-- `stfsu`, D-form, R582. -/
  | stfsu (frS : Reg) (rA : Reg) (d : BitVec 16)
  /-- `stfsux`, X-form, R583. -/
  | stfsux (frS : Reg) (rA : Reg) (rB : Reg) (rc : Bool)
  /-- `stfd`, D-form, R584. -/
  | stfd (frS : Reg) (rA : Reg) (d : BitVec 16)
  /-- `stfdx`, X-form, R585. -/
  | stfdx (frS : Reg) (rA : Reg) (rB : Reg) (rc : Bool)
  /-- `stfdu`, D-form, R586. -/
  | stfdu (frS : Reg) (rA : Reg) (d : BitVec 16)
  /-- `stfdux`, X-form, R587. -/
  | stfdux (frS : Reg) (rA : Reg) (rB : Reg) (rc : Bool)
  /-- `stfiwx`, X-form, R588. -/
  | stfiwx (frS : Reg) (rA : Reg) (rB : Reg) (rc : Bool)
  /-- `b`, I-form, R620. -/
  | b (li : BitVec 24) (aa : Bool) (lk : Bool)
  /-- `bc`, B-form, R621. -/
  | bc (bo : BitVec 5) (bi : BitVec 5) (bd : BitVec 14) (aa : Bool) (lk : Bool)
  /-- `bclr`, XL-form, R622. -/
  | bclr (bo : BitVec 5) (bi : BitVec 5) (lk : Bool)
  /-- `bcctr`, XL-form, R623. -/
  | bcctr (bo : BitVec 5) (bi : BitVec 5) (lk : Bool)
  /-- `crand`, XL-form, R631. -/
  | crand (crbD : BitVec 5) (crbA : BitVec 5) (crbB : BitVec 5)
  /-- `cror`, XL-form, R632. -/
  | cror (crbD : BitVec 5) (crbA : BitVec 5) (crbB : BitVec 5)
  /-- `crxor`, XL-form, R633. -/
  | crxor (crbD : BitVec 5) (crbA : BitVec 5) (crbB : BitVec 5)
  /-- `crnand`, XL-form, R634. -/
  | crnand (crbD : BitVec 5) (crbA : BitVec 5) (crbB : BitVec 5)
  /-- `crnor`, XL-form, R635. -/
  | crnor (crbD : BitVec 5) (crbA : BitVec 5) (crbB : BitVec 5)
  /-- `creqv`, XL-form, R636. -/
  | creqv (crbD : BitVec 5) (crbA : BitVec 5) (crbB : BitVec 5)
  /-- `crandc`, XL-form, R637. -/
  | crandc (crbD : BitVec 5) (crbA : BitVec 5) (crbB : BitVec 5)
  /-- `crorc`, XL-form, R638. -/
  | crorc (crbD : BitVec 5) (crbA : BitVec 5) (crbB : BitVec 5)
  /-- `mcrf`, XL-form, R639. -/
  | mcrf (crfD : BitVec 3) (crfS : BitVec 3)
  /-- `twi`, D-form, R641. -/
  | twi (tcond : BitVec 5) (rA : Reg) (simm : BitVec 16)
  /-- `tw`, X-form, R642. -/
  | tw (tcond : BitVec 5) (rA : Reg) (rB : Reg)
  /-- `sc`, SC-form, R654. -/
  | sc
  /-- `rfi`, XL-form, R655. -/
  | rfi
  /-- `mtmsr`, X-form, R656. -/
  | mtmsr (rS : Reg)
  /-- `mfmsr`, X-form, R657. -/
  | mfmsr (rD : Reg)
  /-- `mtcrf`, XFX-form, R658. -/
  | mtcrf (rS : Reg) (crm : BitVec 8)
  /-- `mcrxr`, X-form, R659. -/
  | mcrxr (crfD : BitVec 3)
  /-- `mfcr`, X-form, R661. -/
  | mfcr (rD : Reg)
  /-- `mtspr`, XFX-form, R663. -/
  | mtspr (rS : Reg) (spr : BitVec 10) (rc : Bool)
  /-- `mfspr`, XFX-form, R666. -/
  | mfspr (rD : Reg) (spr : BitVec 10) (rc : Bool)
  /-- `mftb`, XFX-form, R668. -/
  | mftb (rD : Reg) (tbr : BitVec 10)
  /-- `lwarx`, X-form, R670. -/
  | lwarx (rD : Reg) (rA : Reg) (rB : Reg) (rc : Bool)
  /-- `stwcx.`, X-form, R671. -/
  | stwcxRec (rS : Reg) (rA : Reg) (rB : Reg) (rc : Bool)
  /-- `sync`, X-form, R672. -/
  | sync (rc : Bool)
  /-- `eieio`, X-form, R673. -/
  | eieio
  /-- `isync`, XL-form, R674. -/
  | isync
  /-- `dcbt`, X-form, R681. -/
  | dcbt (rA : Reg) (rB : Reg)
  /-- `dcbtst`, X-form, R682. -/
  | dcbtst (rA : Reg) (rB : Reg)
  /-- `dcbz`, X-form, R683. -/
  | dcbz (rA : Reg) (rB : Reg)
  /-- `dcbst`, X-form, R684. -/
  | dcbst (rA : Reg) (rB : Reg)
  /-- `dcbf`, X-form, R685. -/
  | dcbf (rA : Reg) (rB : Reg)
  /-- `icbi`, X-form, R686. -/
  | icbi (rA : Reg) (rB : Reg)
  /-- `dcbi`, X-form, R687. -/
  | dcbi (rA : Reg) (rB : Reg)
  /-- `eciwx`, X-form, R690. -/
  | eciwx (rD : Reg) (rA : Reg) (rB : Reg)
  /-- `ecowx`, X-form, R691. -/
  | ecowx (rS : Reg) (rA : Reg) (rB : Reg)
  /-- `mtsr`, X-form, R696. -/
  | mtsr (rS : Reg) (sr : BitVec 4)
  /-- `mtsrin`, X-form, R697. -/
  | mtsrin (rS : Reg) (rB : Reg)
  /-- `mfsr`, X-form, R698. -/
  | mfsr (rD : Reg) (sr : BitVec 4)
  /-- `mfsrin`, X-form, R699. -/
  | mfsrin (rD : Reg) (rB : Reg)
  /-- `tlbie`, X-form, R700. -/
  | tlbie (rB : Reg)
  /-- `tlbsync`, X-form, R701. -/
  | tlbsync
deriving DecidableEq, Repr

end Sys2Proof
end

