-- ==== Sys2Proof/WellFormed.lean ====
section
/-! DEFINITION. WellFormed.lean: which instructions are valid forms (30_encoding.md R291, R293, R294, R295,
R287; 44_system.md R660, R668). The 604e executes invalid forms too, as the meanings say; a form that is not
well formed is one whose result the spec leaves open in part. -/

namespace Sys2Proof

/-- Why a form is invalid. -/
inductive InvalidForm where
  /-- A compare with L = 1 (R291). -/
  | longCompare
  /-- Bit 31 is not what the instruction asks for (R293, R295). -/
  | recordBit
  /-- A load or store with update whose rA is 0 (R291, R502). -/
  | updateBaseZero
  /-- A load with update whose rA is its rD (R291, R502). -/
  | updateTarget
  /-- A multiple or string load whose address register is among the registers loaded (R291, R551, R556, R557). -/
  | baseInRange
  /-- `bcctr` with BO[2] = 0 (R291). -/
  | counterBranch
  /-- A BO value of R294. -/
  | branchOptions
  /-- An SPR number the 604e does not have (R287, R660). -/
  | undefinedSpr
  /-- A time base register number other than 268 and 269 (R668). -/
  | undefinedTbr
deriving DecidableEq, Repr

/-- The SPR numbers `mtspr` accepts (44_system.md R660). -/
def writableSprs : List Nat :=
  [1, 8, 9, 18, 19, 22, 25, 26, 27, 272, 273, 274, 275, 282, 284, 285, 287,
   528, 529, 530, 531, 532, 533, 534, 535, 536, 537, 538, 539, 540, 541, 542, 543,
   952, 953, 954, 955, 956, 957, 958, 959, 1008, 1009, 1010, 1013, 1023]

/-- The SPR numbers `mfspr` accepts: the time base is not among them (R660, R667). -/
def readableSprs : List Nat :=
  [1, 8, 9, 18, 19, 22, 25, 26, 27, 272, 273, 274, 275, 282, 287,
   528, 529, 530, 531, 532, 533, 534, 535, 536, 537, 538, 539, 540, 541, 542, 543,
   952, 953, 954, 955, 956, 957, 958, 959, 1008, 1009, 1010, 1013, 1023]

/-- The BO values of R294 have a one in a position the branch ignores: BO[1] when BO[0] = 1, BO[3] when
BO[2] = 1, BO[4] when both. -/
def boInvalid (bo : BitVec 5) : Bool :=
  (bo.getMsbD 0 && bo.getMsbD 1) || (bo.getMsbD 2 && bo.getMsbD 3)
    || (bo.getMsbD 0 && bo.getMsbD 2 && bo.getMsbD 4)

/-- Whether register `r` is one of the `n` registers from `d` on, counted modulo 32 (R555). -/
def inRegRange (d r : Reg) (n : Nat) : Bool :=
  decide ((r - d).toNat < n)

/-- How many registers a string of `nb` bytes uses, `nb` = 0 standing for 32 (R555, R556). -/
def stringImmRegs (nb : BitVec 5) : Nat :=
  if nb = 0 then 8 else (nb.toNat + 3) / 4

/-- `p` unless an earlier check `q` already found a problem. -/
def orElseForm (q : Bool) (e : InvalidForm) (rest : Option InvalidForm) : Option InvalidForm :=
  if q then some e else rest

/-- The first check an instruction fails, if any. -/
def Instr.formProblem : Instr → Option InvalidForm
  | .addi _ _ _ => none
  | .addis _ _ _ => none
  | .addic _ _ _ => none
  | .addicRec _ _ _ => none
  | .subfic _ _ _ => none
  | .mulli _ _ _ => none
  | .add _ _ _ _ _ => none
  | .subf _ _ _ _ _ => none
  | .addc _ _ _ _ _ => none
  | .subfc _ _ _ _ _ => none
  | .adde _ _ _ _ _ => none
  | .subfe _ _ _ _ _ => none
  | .addme _ _ _ _ => none
  | .subfme _ _ _ _ => none
  | .addze _ _ _ _ => none
  | .subfze _ _ _ _ => none
  | .neg _ _ _ _ => none
  | .mullw _ _ _ _ _ => none
  | .mulhw _ _ _ _ => none
  | .mulhwu _ _ _ _ => none
  | .divw _ _ _ _ _ => none
  | .divwu _ _ _ _ _ => none
  | .cmpi _ l _ _ => orElseForm l .longCompare none
  | .cmp _ l _ _ => orElseForm l .longCompare none
  | .cmpli _ l _ _ => orElseForm l .longCompare none
  | .cmpl _ l _ _ => orElseForm l .longCompare none
  | .andiRec _ _ _ => none
  | .andisRec _ _ _ => none
  | .ori _ _ _ => none
  | .oris _ _ _ => none
  | .xori _ _ _ => none
  | .xoris _ _ _ => none
  | .and _ _ _ _ => none
  | .or _ _ _ _ => none
  | .xor _ _ _ _ => none
  | .nand _ _ _ _ => none
  | .nor _ _ _ _ => none
  | .eqv _ _ _ _ => none
  | .andc _ _ _ _ => none
  | .orc _ _ _ _ => none
  | .extsb _ _ _ => none
  | .extsh _ _ _ => none
  | .cntlzw _ _ _ => none
  | .rlwinm _ _ _ _ _ _ => none
  | .rlwnm _ _ _ _ _ _ => none
  | .rlwimi _ _ _ _ _ _ => none
  | .slw _ _ _ _ => none
  | .srw _ _ _ _ => none
  | .srawi _ _ _ _ => none
  | .sraw _ _ _ _ => none
  | .fadd _ _ _ _ => none
  | .fadds _ _ _ _ => none
  | .fsub _ _ _ _ => none
  | .fsubs _ _ _ _ => none
  | .fmul _ _ _ _ => none
  | .fmuls _ _ _ _ => none
  | .fdiv _ _ _ _ => none
  | .fdivs _ _ _ _ => none
  | .fres _ _ _ => none
  | .frsqrte _ _ _ => none
  | .fsel _ _ _ _ _ => none
  | .fmadd _ _ _ _ _ => none
  | .fmadds _ _ _ _ _ => none
  | .fmsub _ _ _ _ _ => none
  | .fmsubs _ _ _ _ _ => none
  | .fnmadd _ _ _ _ _ => none
  | .fnmadds _ _ _ _ _ => none
  | .fnmsub _ _ _ _ _ => none
  | .fnmsubs _ _ _ _ _ => none
  | .frsp _ _ _ => none
  | .fctiw _ _ _ => none
  | .fctiwz _ _ _ => none
  | .fcmpu _ _ _ rc => orElseForm rc .recordBit none
  | .fcmpo _ _ _ rc => orElseForm rc .recordBit none
  | .mffs _ _ => none
  | .mcrfs _ _ => none
  | .mtfsfi _ _ _ => none
  | .mtfsf _ _ _ => none
  | .mtfsb0 _ _ => none
  | .mtfsb1 _ _ => none
  | .fmr _ _ _ => none
  | .fneg _ _ _ => none
  | .fabs _ _ _ => none
  | .fnabs _ _ _ => none
  | .lbz _ _ _ => none
  | .lbzx _ _ _ rc => orElseForm rc .recordBit none
  | .lbzu rD rA _ => orElseForm (rA == 0) .updateBaseZero (orElseForm (rA == rD) .updateTarget none)
  | .lbzux rD rA _ rc => orElseForm (rA == 0) .updateBaseZero
      (orElseForm (rA == rD) .updateTarget (orElseForm rc .recordBit none))
  | .lhz _ _ _ => none
  | .lhzx _ _ _ rc => orElseForm rc .recordBit none
  | .lhzu rD rA _ => orElseForm (rA == 0) .updateBaseZero (orElseForm (rA == rD) .updateTarget none)
  | .lhzux rD rA _ rc => orElseForm (rA == 0) .updateBaseZero
      (orElseForm (rA == rD) .updateTarget (orElseForm rc .recordBit none))
  | .lha _ _ _ => none
  | .lhax _ _ _ rc => orElseForm rc .recordBit none
  | .lhau rD rA _ => orElseForm (rA == 0) .updateBaseZero (orElseForm (rA == rD) .updateTarget none)
  | .lhaux rD rA _ rc => orElseForm (rA == 0) .updateBaseZero
      (orElseForm (rA == rD) .updateTarget (orElseForm rc .recordBit none))
  | .lwz _ _ _ => none
  | .lwzx _ _ _ rc => orElseForm rc .recordBit none
  | .lwzu rD rA _ => orElseForm (rA == 0) .updateBaseZero (orElseForm (rA == rD) .updateTarget none)
  | .lwzux rD rA _ rc => orElseForm (rA == 0) .updateBaseZero
      (orElseForm (rA == rD) .updateTarget (orElseForm rc .recordBit none))
  | .stb _ _ _ => none
  | .stbx _ _ _ rc => orElseForm rc .recordBit none
  | .stbu _ rA _ => orElseForm (rA == 0) .updateBaseZero none
  | .stbux _ rA _ rc => orElseForm (rA == 0) .updateBaseZero (orElseForm rc .recordBit none)
  | .sth _ _ _ => none
  | .sthx _ _ _ rc => orElseForm rc .recordBit none
  | .sthu _ rA _ => orElseForm (rA == 0) .updateBaseZero none
  | .sthux _ rA _ rc => orElseForm (rA == 0) .updateBaseZero (orElseForm rc .recordBit none)
  | .stw _ _ _ => none
  | .stwx _ _ _ rc => orElseForm rc .recordBit none
  | .stwu _ rA _ => orElseForm (rA == 0) .updateBaseZero none
  | .stwux _ rA _ rc => orElseForm (rA == 0) .updateBaseZero (orElseForm rc .recordBit none)
  | .lhbrx _ _ _ rc => orElseForm rc .recordBit none
  | .lwbrx _ _ _ rc => orElseForm rc .recordBit none
  | .sthbrx _ _ _ rc => orElseForm rc .recordBit none
  | .stwbrx _ _ _ rc => orElseForm rc .recordBit none
  | .lmw rD rA _ => orElseForm (decide (rD.toNat ≤ rA.toNat)) .baseInRange none
  | .stmw _ _ _ => none
  | .lswi rD rA nb rc => orElseForm (inRegRange rD rA (stringImmRegs nb)) .baseInRange (orElseForm rc .recordBit none)
  | .lswx rD rA rB rc => orElseForm (rA == rD || rB == rD) .baseInRange (orElseForm rc .recordBit none)
  | .stswi _ _ _ rc => orElseForm rc .recordBit none
  | .stswx _ _ _ rc => orElseForm rc .recordBit none
  | .lfs _ _ _ => none
  | .lfsx _ _ _ rc => orElseForm rc .recordBit none
  | .lfsu _ rA _ => orElseForm (rA == 0) .updateBaseZero none
  | .lfsux _ rA _ rc => orElseForm (rA == 0) .updateBaseZero (orElseForm rc .recordBit none)
  | .lfd _ _ _ => none
  | .lfdx _ _ _ rc => orElseForm rc .recordBit none
  | .lfdu _ rA _ => orElseForm (rA == 0) .updateBaseZero none
  | .lfdux _ rA _ rc => orElseForm (rA == 0) .updateBaseZero (orElseForm rc .recordBit none)
  | .stfs _ _ _ => none
  | .stfsx _ _ _ rc => orElseForm rc .recordBit none
  | .stfsu _ rA _ => orElseForm (rA == 0) .updateBaseZero none
  | .stfsux _ rA _ rc => orElseForm (rA == 0) .updateBaseZero (orElseForm rc .recordBit none)
  | .stfd _ _ _ => none
  | .stfdx _ _ _ rc => orElseForm rc .recordBit none
  | .stfdu _ rA _ => orElseForm (rA == 0) .updateBaseZero none
  | .stfdux _ rA _ rc => orElseForm (rA == 0) .updateBaseZero (orElseForm rc .recordBit none)
  | .stfiwx _ _ _ rc => orElseForm rc .recordBit none
  | .b _ _ _ => none
  | .bc bo _ _ _ _ => orElseForm (boInvalid bo) .branchOptions none
  | .bclr bo _ _ => orElseForm (boInvalid bo) .branchOptions none
  | .bcctr bo _ _ => orElseForm (!bo.getMsbD 2) .counterBranch (orElseForm (boInvalid bo) .branchOptions none)
  | .crand _ _ _ => none
  | .cror _ _ _ => none
  | .crxor _ _ _ => none
  | .crnand _ _ _ => none
  | .crnor _ _ _ => none
  | .creqv _ _ _ => none
  | .crandc _ _ _ => none
  | .crorc _ _ _ => none
  | .mcrf _ _ => none
  | .twi _ _ _ => none
  | .tw _ _ _ => none
  | .sc => none
  | .rfi => none
  | .mtmsr _ => none
  | .mfmsr _ => none
  | .mtcrf _ _ => none
  | .mcrxr _ => none
  | .mfcr _ => none
  | .mtspr _ spr rc => orElseForm (!writableSprs.contains spr.toNat) .undefinedSpr (orElseForm rc .recordBit none)
  | .mfspr _ spr rc => orElseForm (!readableSprs.contains spr.toNat) .undefinedSpr (orElseForm rc .recordBit none)
  | .mftb _ tbr => orElseForm (!(tbr == 268 || tbr == 269)) .undefinedTbr none
  | .lwarx _ _ _ rc => orElseForm rc .recordBit none
  | .stwcxRec _ _ _ rc => orElseForm (!rc) .recordBit none
  | .sync rc => orElseForm rc .recordBit none
  | .eieio => none
  | .isync => none
  | .dcbt _ _ => none
  | .dcbtst _ _ => none
  | .dcbz _ _ => none
  | .dcbst _ _ => none
  | .dcbf _ _ => none
  | .icbi _ _ => none
  | .dcbi _ _ => none
  | .eciwx _ _ _ => none
  | .ecowx _ _ _ => none
  | .mtsr _ _ => none
  | .mtsrin _ _ => none
  | .mfsr _ _ => none
  | .mfsrin _ _ => none
  | .tlbie _ => none
  | .tlbsync => none

/-- The instruction is a valid form. -/
def Instr.wellFormed (i : Instr) : Bool := i.formProblem.isNone

end Sys2Proof
end

