-- ==== Sys2Proof/Decode.lean ====
section
/-! DEFINITION. Decode.lean: from words and bytes to instructions, total, and back (30_encoding.md R260 to R296).

Bits are numbered from the most significant in the spec (R11); `extractLsb' k n` counts from the least
significant, so field hi:lo of the spec starts at 31 - lo. Must-be-zero bits are not looked at: policy `ignore`
of 92_eei_decisions.md D13 (DESIGN CHOICE, log entry 5). -/

namespace Sys2Proof

/-- Why a word is no instruction of the 604e (R286): each is the illegal-instruction program exception. -/
inductive DecodeError where
  /-- Primary opcode 0, the all-zero word among them (R286 d). -/
  | zeroPrimary
  /-- Primary opcodes 1, 4, 5, 6, 9, 22, 56, 57, 60, 61 (R286 a). -/
  | illegalPrimary
  /-- Primary opcodes 2, 30, 58, 62: 64-bit instructions only (R286 b). -/
  | sixtyFourBit
  /-- Primary opcode 17, 19, 31, 59 or 63 with an extended opcode the 604e does not implement (R286 c). -/
  | unusedExtended
  /-- Fewer than four bytes: no whole word (R260). -/
  | tooShort
deriving DecidableEq, Repr

/-- Bit `k` of a word, counted from the least significant end. -/
def bitAt (w : Word) (k : Nat) : Bool := w.getLsbD k

/-- The SPR or time base register number: its halves stand exchanged in bits 11:20 (R277). -/
def sprOf (w : Word) : BitVec 10 := w.extractLsb' 11 5 ++ w.extractLsb' 16 5

/-- The field 11:20 that spells an SPR number. -/
def sprField (n : BitVec 10) : BitVec 10 := n.extractLsb' 0 5 ++ n.extractLsb' 5 5

/-- Primary opcode, bits 0:5. -/
def primary (w : Word) : Nat := (w.extractLsb' 26 6).toNat

/-- Extended opcode of the X, XL, XFX and XFL forms, bits 21:30. -/
def xo10 (w : Word) : Nat := (w.extractLsb' 1 10).toNat

/-- Extended opcode of the XO form, bits 22:30. -/
def xo9 (w : Word) : Nat := (w.extractLsb' 1 9).toNat

/-- Extended opcode of the A form, bits 26:30. -/
def xo5 (w : Word) : Nat := (w.extractLsb' 1 5).toNat

/-- Primary 19 (R281). -/
def decode19 (w : Word) : Except DecodeError Instr :=
  match xo10 w with
  | 0 => .ok (.mcrf (w.extractLsb' 23 3) (w.extractLsb' 18 3))
  | 16 => .ok (.bclr (w.extractLsb' 21 5) (w.extractLsb' 16 5) (bitAt w 0))
  | 33 => .ok (.crnor (w.extractLsb' 21 5) (w.extractLsb' 16 5) (w.extractLsb' 11 5))
  | 50 => .ok .rfi
  | 129 => .ok (.crandc (w.extractLsb' 21 5) (w.extractLsb' 16 5) (w.extractLsb' 11 5))
  | 150 => .ok .isync
  | 193 => .ok (.crxor (w.extractLsb' 21 5) (w.extractLsb' 16 5) (w.extractLsb' 11 5))
  | 225 => .ok (.crnand (w.extractLsb' 21 5) (w.extractLsb' 16 5) (w.extractLsb' 11 5))
  | 257 => .ok (.crand (w.extractLsb' 21 5) (w.extractLsb' 16 5) (w.extractLsb' 11 5))
  | 289 => .ok (.creqv (w.extractLsb' 21 5) (w.extractLsb' 16 5) (w.extractLsb' 11 5))
  | 417 => .ok (.crorc (w.extractLsb' 21 5) (w.extractLsb' 16 5) (w.extractLsb' 11 5))
  | 449 => .ok (.cror (w.extractLsb' 21 5) (w.extractLsb' 16 5) (w.extractLsb' 11 5))
  | 528 => .ok (.bcctr (w.extractLsb' 21 5) (w.extractLsb' 16 5) (bitAt w 0))
  | _ => .error .unusedExtended

/-- Primary 31, selected by the ten bits 21:30 (R282). -/
def decode31X (w : Word) : Except DecodeError Instr :=
  match xo10 w with
  | 0 => .ok (.cmp (w.extractLsb' 23 3) (bitAt w 21) (w.extractLsb' 16 5) (w.extractLsb' 11 5))
  | 4 => .ok (.tw (w.extractLsb' 21 5) (w.extractLsb' 16 5) (w.extractLsb' 11 5))
  | 19 => .ok (.mfcr (w.extractLsb' 21 5))
  | 20 => .ok (.lwarx (w.extractLsb' 21 5) (w.extractLsb' 16 5) (w.extractLsb' 11 5) (bitAt w 0))
  | 23 => .ok (.lwzx (w.extractLsb' 21 5) (w.extractLsb' 16 5) (w.extractLsb' 11 5) (bitAt w 0))
  | 24 => .ok (.slw (w.extractLsb' 21 5) (w.extractLsb' 16 5) (w.extractLsb' 11 5) (bitAt w 0))
  | 26 => .ok (.cntlzw (w.extractLsb' 21 5) (w.extractLsb' 16 5) (bitAt w 0))
  | 28 => .ok (.and (w.extractLsb' 21 5) (w.extractLsb' 16 5) (w.extractLsb' 11 5) (bitAt w 0))
  | 32 => .ok (.cmpl (w.extractLsb' 23 3) (bitAt w 21) (w.extractLsb' 16 5) (w.extractLsb' 11 5))
  | 54 => .ok (.dcbst (w.extractLsb' 16 5) (w.extractLsb' 11 5))
  | 55 => .ok (.lwzux (w.extractLsb' 21 5) (w.extractLsb' 16 5) (w.extractLsb' 11 5) (bitAt w 0))
  | 60 => .ok (.andc (w.extractLsb' 21 5) (w.extractLsb' 16 5) (w.extractLsb' 11 5) (bitAt w 0))
  | 83 => .ok (.mfmsr (w.extractLsb' 21 5))
  | 86 => .ok (.dcbf (w.extractLsb' 16 5) (w.extractLsb' 11 5))
  | 87 => .ok (.lbzx (w.extractLsb' 21 5) (w.extractLsb' 16 5) (w.extractLsb' 11 5) (bitAt w 0))
  | 119 => .ok (.lbzux (w.extractLsb' 21 5) (w.extractLsb' 16 5) (w.extractLsb' 11 5) (bitAt w 0))
  | 124 => .ok (.nor (w.extractLsb' 21 5) (w.extractLsb' 16 5) (w.extractLsb' 11 5) (bitAt w 0))
  | 144 => .ok (.mtcrf (w.extractLsb' 21 5) (w.extractLsb' 12 8))
  | 146 => .ok (.mtmsr (w.extractLsb' 21 5))
  | 150 => .ok (.stwcxRec (w.extractLsb' 21 5) (w.extractLsb' 16 5) (w.extractLsb' 11 5) (bitAt w 0))
  | 151 => .ok (.stwx (w.extractLsb' 21 5) (w.extractLsb' 16 5) (w.extractLsb' 11 5) (bitAt w 0))
  | 183 => .ok (.stwux (w.extractLsb' 21 5) (w.extractLsb' 16 5) (w.extractLsb' 11 5) (bitAt w 0))
  | 210 => .ok (.mtsr (w.extractLsb' 21 5) (w.extractLsb' 16 4))
  | 215 => .ok (.stbx (w.extractLsb' 21 5) (w.extractLsb' 16 5) (w.extractLsb' 11 5) (bitAt w 0))
  | 242 => .ok (.mtsrin (w.extractLsb' 21 5) (w.extractLsb' 11 5))
  | 246 => .ok (.dcbtst (w.extractLsb' 16 5) (w.extractLsb' 11 5))
  | 247 => .ok (.stbux (w.extractLsb' 21 5) (w.extractLsb' 16 5) (w.extractLsb' 11 5) (bitAt w 0))
  | 278 => .ok (.dcbt (w.extractLsb' 16 5) (w.extractLsb' 11 5))
  | 279 => .ok (.lhzx (w.extractLsb' 21 5) (w.extractLsb' 16 5) (w.extractLsb' 11 5) (bitAt w 0))
  | 284 => .ok (.eqv (w.extractLsb' 21 5) (w.extractLsb' 16 5) (w.extractLsb' 11 5) (bitAt w 0))
  | 306 => .ok (.tlbie (w.extractLsb' 11 5))
  | 310 => .ok (.eciwx (w.extractLsb' 21 5) (w.extractLsb' 16 5) (w.extractLsb' 11 5))
  | 311 => .ok (.lhzux (w.extractLsb' 21 5) (w.extractLsb' 16 5) (w.extractLsb' 11 5) (bitAt w 0))
  | 316 => .ok (.xor (w.extractLsb' 21 5) (w.extractLsb' 16 5) (w.extractLsb' 11 5) (bitAt w 0))
  | 339 => .ok (.mfspr (w.extractLsb' 21 5) (sprOf w) (bitAt w 0))
  | 343 => .ok (.lhax (w.extractLsb' 21 5) (w.extractLsb' 16 5) (w.extractLsb' 11 5) (bitAt w 0))
  | 371 => .ok (.mftb (w.extractLsb' 21 5) (sprOf w))
  | 375 => .ok (.lhaux (w.extractLsb' 21 5) (w.extractLsb' 16 5) (w.extractLsb' 11 5) (bitAt w 0))
  | 407 => .ok (.sthx (w.extractLsb' 21 5) (w.extractLsb' 16 5) (w.extractLsb' 11 5) (bitAt w 0))
  | 412 => .ok (.orc (w.extractLsb' 21 5) (w.extractLsb' 16 5) (w.extractLsb' 11 5) (bitAt w 0))
  | 438 => .ok (.ecowx (w.extractLsb' 21 5) (w.extractLsb' 16 5) (w.extractLsb' 11 5))
  | 439 => .ok (.sthux (w.extractLsb' 21 5) (w.extractLsb' 16 5) (w.extractLsb' 11 5) (bitAt w 0))
  | 444 => .ok (.or (w.extractLsb' 21 5) (w.extractLsb' 16 5) (w.extractLsb' 11 5) (bitAt w 0))
  | 467 => .ok (.mtspr (w.extractLsb' 21 5) (sprOf w) (bitAt w 0))
  | 470 => .ok (.dcbi (w.extractLsb' 16 5) (w.extractLsb' 11 5))
  | 476 => .ok (.nand (w.extractLsb' 21 5) (w.extractLsb' 16 5) (w.extractLsb' 11 5) (bitAt w 0))
  | 512 => .ok (.mcrxr (w.extractLsb' 23 3))
  | 533 => .ok (.lswx (w.extractLsb' 21 5) (w.extractLsb' 16 5) (w.extractLsb' 11 5) (bitAt w 0))
  | 534 => .ok (.lwbrx (w.extractLsb' 21 5) (w.extractLsb' 16 5) (w.extractLsb' 11 5) (bitAt w 0))
  | 535 => .ok (.lfsx (w.extractLsb' 21 5) (w.extractLsb' 16 5) (w.extractLsb' 11 5) (bitAt w 0))
  | 536 => .ok (.srw (w.extractLsb' 21 5) (w.extractLsb' 16 5) (w.extractLsb' 11 5) (bitAt w 0))
  | 566 => .ok .tlbsync
  | 567 => .ok (.lfsux (w.extractLsb' 21 5) (w.extractLsb' 16 5) (w.extractLsb' 11 5) (bitAt w 0))
  | 595 => .ok (.mfsr (w.extractLsb' 21 5) (w.extractLsb' 16 4))
  | 597 => .ok (.lswi (w.extractLsb' 21 5) (w.extractLsb' 16 5) (w.extractLsb' 11 5) (bitAt w 0))
  | 598 => .ok (.sync (bitAt w 0))
  | 599 => .ok (.lfdx (w.extractLsb' 21 5) (w.extractLsb' 16 5) (w.extractLsb' 11 5) (bitAt w 0))
  | 631 => .ok (.lfdux (w.extractLsb' 21 5) (w.extractLsb' 16 5) (w.extractLsb' 11 5) (bitAt w 0))
  | 659 => .ok (.mfsrin (w.extractLsb' 21 5) (w.extractLsb' 11 5))
  | 661 => .ok (.stswx (w.extractLsb' 21 5) (w.extractLsb' 16 5) (w.extractLsb' 11 5) (bitAt w 0))
  | 662 => .ok (.stwbrx (w.extractLsb' 21 5) (w.extractLsb' 16 5) (w.extractLsb' 11 5) (bitAt w 0))
  | 663 => .ok (.stfsx (w.extractLsb' 21 5) (w.extractLsb' 16 5) (w.extractLsb' 11 5) (bitAt w 0))
  | 695 => .ok (.stfsux (w.extractLsb' 21 5) (w.extractLsb' 16 5) (w.extractLsb' 11 5) (bitAt w 0))
  | 725 => .ok (.stswi (w.extractLsb' 21 5) (w.extractLsb' 16 5) (w.extractLsb' 11 5) (bitAt w 0))
  | 727 => .ok (.stfdx (w.extractLsb' 21 5) (w.extractLsb' 16 5) (w.extractLsb' 11 5) (bitAt w 0))
  | 759 => .ok (.stfdux (w.extractLsb' 21 5) (w.extractLsb' 16 5) (w.extractLsb' 11 5) (bitAt w 0))
  | 790 => .ok (.lhbrx (w.extractLsb' 21 5) (w.extractLsb' 16 5) (w.extractLsb' 11 5) (bitAt w 0))
  | 792 => .ok (.sraw (w.extractLsb' 21 5) (w.extractLsb' 16 5) (w.extractLsb' 11 5) (bitAt w 0))
  | 824 => .ok (.srawi (w.extractLsb' 21 5) (w.extractLsb' 16 5) (w.extractLsb' 11 5) (bitAt w 0))
  | 854 => .ok .eieio
  | 918 => .ok (.sthbrx (w.extractLsb' 21 5) (w.extractLsb' 16 5) (w.extractLsb' 11 5) (bitAt w 0))
  | 922 => .ok (.extsh (w.extractLsb' 21 5) (w.extractLsb' 16 5) (bitAt w 0))
  | 954 => .ok (.extsb (w.extractLsb' 21 5) (w.extractLsb' 16 5) (bitAt w 0))
  | 982 => .ok (.icbi (w.extractLsb' 16 5) (w.extractLsb' 11 5))
  | 983 => .ok (.stfiwx (w.extractLsb' 21 5) (w.extractLsb' 16 5) (w.extractLsb' 11 5) (bitAt w 0))
  | 1014 => .ok (.dcbz (w.extractLsb' 16 5) (w.extractLsb' 11 5))
  | _ => .error .unusedExtended

/-- Primary 31: the XO form goes by bits 22:30, bit 21 being OE, the rest by `decode31X` (R282, R296). -/
def decode31 (w : Word) : Except DecodeError Instr :=
  match xo9 w with
  | 8 => .ok (.subfc (w.extractLsb' 21 5) (w.extractLsb' 16 5) (w.extractLsb' 11 5) (bitAt w 10) (bitAt w 0))
  | 10 => .ok (.addc (w.extractLsb' 21 5) (w.extractLsb' 16 5) (w.extractLsb' 11 5) (bitAt w 10) (bitAt w 0))
  | 11 => .ok (.mulhwu (w.extractLsb' 21 5) (w.extractLsb' 16 5) (w.extractLsb' 11 5) (bitAt w 0))
  | 40 => .ok (.subf (w.extractLsb' 21 5) (w.extractLsb' 16 5) (w.extractLsb' 11 5) (bitAt w 10) (bitAt w 0))
  | 75 => .ok (.mulhw (w.extractLsb' 21 5) (w.extractLsb' 16 5) (w.extractLsb' 11 5) (bitAt w 0))
  | 104 => .ok (.neg (w.extractLsb' 21 5) (w.extractLsb' 16 5) (bitAt w 10) (bitAt w 0))
  | 136 => .ok (.subfe (w.extractLsb' 21 5) (w.extractLsb' 16 5) (w.extractLsb' 11 5) (bitAt w 10) (bitAt w 0))
  | 138 => .ok (.adde (w.extractLsb' 21 5) (w.extractLsb' 16 5) (w.extractLsb' 11 5) (bitAt w 10) (bitAt w 0))
  | 200 => .ok (.subfze (w.extractLsb' 21 5) (w.extractLsb' 16 5) (bitAt w 10) (bitAt w 0))
  | 202 => .ok (.addze (w.extractLsb' 21 5) (w.extractLsb' 16 5) (bitAt w 10) (bitAt w 0))
  | 232 => .ok (.subfme (w.extractLsb' 21 5) (w.extractLsb' 16 5) (bitAt w 10) (bitAt w 0))
  | 234 => .ok (.addme (w.extractLsb' 21 5) (w.extractLsb' 16 5) (bitAt w 10) (bitAt w 0))
  | 235 => .ok (.mullw (w.extractLsb' 21 5) (w.extractLsb' 16 5) (w.extractLsb' 11 5) (bitAt w 10) (bitAt w 0))
  | 266 => .ok (.add (w.extractLsb' 21 5) (w.extractLsb' 16 5) (w.extractLsb' 11 5) (bitAt w 10) (bitAt w 0))
  | 459 => .ok (.divwu (w.extractLsb' 21 5) (w.extractLsb' 16 5) (w.extractLsb' 11 5) (bitAt w 10) (bitAt w 0))
  | 491 => .ok (.divw (w.extractLsb' 21 5) (w.extractLsb' 16 5) (w.extractLsb' 11 5) (bitAt w 10) (bitAt w 0))
  | _ => decode31X w

/-- Primary 59 (R283). -/
def decode59 (w : Word) : Except DecodeError Instr :=
  match xo5 w with
  | 18 => .ok (.fdivs (w.extractLsb' 21 5) (w.extractLsb' 16 5) (w.extractLsb' 11 5) (bitAt w 0))
  | 20 => .ok (.fsubs (w.extractLsb' 21 5) (w.extractLsb' 16 5) (w.extractLsb' 11 5) (bitAt w 0))
  | 21 => .ok (.fadds (w.extractLsb' 21 5) (w.extractLsb' 16 5) (w.extractLsb' 11 5) (bitAt w 0))
  | 24 => .ok (.fres (w.extractLsb' 21 5) (w.extractLsb' 11 5) (bitAt w 0))
  | 25 => .ok (.fmuls (w.extractLsb' 21 5) (w.extractLsb' 16 5) (w.extractLsb' 6 5) (bitAt w 0))
  | 28 => .ok (.fmsubs (w.extractLsb' 21 5) (w.extractLsb' 16 5) (w.extractLsb' 11 5) (w.extractLsb' 6 5) (bitAt w 0))
  | 29 => .ok (.fmadds (w.extractLsb' 21 5) (w.extractLsb' 16 5) (w.extractLsb' 11 5) (w.extractLsb' 6 5) (bitAt w 0))
  | 30 => .ok (.fnmsubs (w.extractLsb' 21 5) (w.extractLsb' 16 5) (w.extractLsb' 11 5) (w.extractLsb' 6 5) (bitAt w 0))
  | 31 => .ok (.fnmadds (w.extractLsb' 21 5) (w.extractLsb' 16 5) (w.extractLsb' 11 5) (w.extractLsb' 6 5) (bitAt w 0))
  | _ => .error .unusedExtended

/-- Primary 63, selected by the ten bits 21:30 (R284). -/
def decode63X (w : Word) : Except DecodeError Instr :=
  match xo10 w with
  | 0 => .ok (.fcmpu (w.extractLsb' 23 3) (w.extractLsb' 16 5) (w.extractLsb' 11 5) (bitAt w 0))
  | 12 => .ok (.frsp (w.extractLsb' 21 5) (w.extractLsb' 11 5) (bitAt w 0))
  | 14 => .ok (.fctiw (w.extractLsb' 21 5) (w.extractLsb' 11 5) (bitAt w 0))
  | 15 => .ok (.fctiwz (w.extractLsb' 21 5) (w.extractLsb' 11 5) (bitAt w 0))
  | 32 => .ok (.fcmpo (w.extractLsb' 23 3) (w.extractLsb' 16 5) (w.extractLsb' 11 5) (bitAt w 0))
  | 38 => .ok (.mtfsb1 (w.extractLsb' 21 5) (bitAt w 0))
  | 40 => .ok (.fneg (w.extractLsb' 21 5) (w.extractLsb' 11 5) (bitAt w 0))
  | 64 => .ok (.mcrfs (w.extractLsb' 23 3) (w.extractLsb' 18 3))
  | 70 => .ok (.mtfsb0 (w.extractLsb' 21 5) (bitAt w 0))
  | 72 => .ok (.fmr (w.extractLsb' 21 5) (w.extractLsb' 11 5) (bitAt w 0))
  | 134 => .ok (.mtfsfi (w.extractLsb' 23 3) (w.extractLsb' 12 4) (bitAt w 0))
  | 136 => .ok (.fnabs (w.extractLsb' 21 5) (w.extractLsb' 11 5) (bitAt w 0))
  | 264 => .ok (.fabs (w.extractLsb' 21 5) (w.extractLsb' 11 5) (bitAt w 0))
  | 583 => .ok (.mffs (w.extractLsb' 21 5) (bitAt w 0))
  | 711 => .ok (.mtfsf (w.extractLsb' 17 8) (w.extractLsb' 11 5) (bitAt w 0))
  | _ => .error .unusedExtended

/-- Primary 63: the A form goes by bits 26:30, the rest by `decode63X` (R284). -/
def decode63 (w : Word) : Except DecodeError Instr :=
  match xo5 w with
  | 18 => .ok (.fdiv (w.extractLsb' 21 5) (w.extractLsb' 16 5) (w.extractLsb' 11 5) (bitAt w 0))
  | 20 => .ok (.fsub (w.extractLsb' 21 5) (w.extractLsb' 16 5) (w.extractLsb' 11 5) (bitAt w 0))
  | 21 => .ok (.fadd (w.extractLsb' 21 5) (w.extractLsb' 16 5) (w.extractLsb' 11 5) (bitAt w 0))
  | 23 => .ok (.fsel (w.extractLsb' 21 5) (w.extractLsb' 16 5) (w.extractLsb' 11 5) (w.extractLsb' 6 5) (bitAt w 0))
  | 25 => .ok (.fmul (w.extractLsb' 21 5) (w.extractLsb' 16 5) (w.extractLsb' 6 5) (bitAt w 0))
  | 26 => .ok (.frsqrte (w.extractLsb' 21 5) (w.extractLsb' 11 5) (bitAt w 0))
  | 28 => .ok (.fmsub (w.extractLsb' 21 5) (w.extractLsb' 16 5) (w.extractLsb' 11 5) (w.extractLsb' 6 5) (bitAt w 0))
  | 29 => .ok (.fmadd (w.extractLsb' 21 5) (w.extractLsb' 16 5) (w.extractLsb' 11 5) (w.extractLsb' 6 5) (bitAt w 0))
  | 30 => .ok (.fnmsub (w.extractLsb' 21 5) (w.extractLsb' 16 5) (w.extractLsb' 11 5) (w.extractLsb' 6 5) (bitAt w 0))
  | 31 => .ok (.fnmadd (w.extractLsb' 21 5) (w.extractLsb' 16 5) (w.extractLsb' 11 5) (w.extractLsb' 6 5) (bitAt w 0))
  | _ => decode63X w

/-- The instruction a word spells (R296). -/
def decode (w : Word) : Except DecodeError Instr :=
  match primary w with
  | 0 => .error .zeroPrimary
  | 2 => .error .sixtyFourBit
  | 3 => .ok (.twi (w.extractLsb' 21 5) (w.extractLsb' 16 5) (w.extractLsb' 0 16))
  | 7 => .ok (.mulli (w.extractLsb' 21 5) (w.extractLsb' 16 5) (w.extractLsb' 0 16))
  | 8 => .ok (.subfic (w.extractLsb' 21 5) (w.extractLsb' 16 5) (w.extractLsb' 0 16))
  | 10 => .ok (.cmpli (w.extractLsb' 23 3) (bitAt w 21) (w.extractLsb' 16 5) (w.extractLsb' 0 16))
  | 11 => .ok (.cmpi (w.extractLsb' 23 3) (bitAt w 21) (w.extractLsb' 16 5) (w.extractLsb' 0 16))
  | 12 => .ok (.addic (w.extractLsb' 21 5) (w.extractLsb' 16 5) (w.extractLsb' 0 16))
  | 13 => .ok (.addicRec (w.extractLsb' 21 5) (w.extractLsb' 16 5) (w.extractLsb' 0 16))
  | 14 => .ok (.addi (w.extractLsb' 21 5) (w.extractLsb' 16 5) (w.extractLsb' 0 16))
  | 15 => .ok (.addis (w.extractLsb' 21 5) (w.extractLsb' 16 5) (w.extractLsb' 0 16))
  | 16 => .ok (.bc (w.extractLsb' 21 5) (w.extractLsb' 16 5) (w.extractLsb' 2 14) (bitAt w 1) (bitAt w 0))
  | 17 => if bitAt w 1 then .ok .sc else .error .unusedExtended
  | 18 => .ok (.b (w.extractLsb' 2 24) (bitAt w 1) (bitAt w 0))
  | 19 => decode19 w
  | 20 => .ok (.rlwimi (w.extractLsb' 21 5) (w.extractLsb' 16 5) (w.extractLsb' 11 5)
      (w.extractLsb' 6 5) (w.extractLsb' 1 5) (bitAt w 0))
  | 21 => .ok (.rlwinm (w.extractLsb' 21 5) (w.extractLsb' 16 5) (w.extractLsb' 11 5)
      (w.extractLsb' 6 5) (w.extractLsb' 1 5) (bitAt w 0))
  | 23 => .ok (.rlwnm (w.extractLsb' 21 5) (w.extractLsb' 16 5) (w.extractLsb' 11 5)
      (w.extractLsb' 6 5) (w.extractLsb' 1 5) (bitAt w 0))
  | 24 => .ok (.ori (w.extractLsb' 21 5) (w.extractLsb' 16 5) (w.extractLsb' 0 16))
  | 25 => .ok (.oris (w.extractLsb' 21 5) (w.extractLsb' 16 5) (w.extractLsb' 0 16))
  | 26 => .ok (.xori (w.extractLsb' 21 5) (w.extractLsb' 16 5) (w.extractLsb' 0 16))
  | 27 => .ok (.xoris (w.extractLsb' 21 5) (w.extractLsb' 16 5) (w.extractLsb' 0 16))
  | 28 => .ok (.andiRec (w.extractLsb' 21 5) (w.extractLsb' 16 5) (w.extractLsb' 0 16))
  | 29 => .ok (.andisRec (w.extractLsb' 21 5) (w.extractLsb' 16 5) (w.extractLsb' 0 16))
  | 30 => .error .sixtyFourBit
  | 31 => decode31 w
  | 32 => .ok (.lwz (w.extractLsb' 21 5) (w.extractLsb' 16 5) (w.extractLsb' 0 16))
  | 33 => .ok (.lwzu (w.extractLsb' 21 5) (w.extractLsb' 16 5) (w.extractLsb' 0 16))
  | 34 => .ok (.lbz (w.extractLsb' 21 5) (w.extractLsb' 16 5) (w.extractLsb' 0 16))
  | 35 => .ok (.lbzu (w.extractLsb' 21 5) (w.extractLsb' 16 5) (w.extractLsb' 0 16))
  | 36 => .ok (.stw (w.extractLsb' 21 5) (w.extractLsb' 16 5) (w.extractLsb' 0 16))
  | 37 => .ok (.stwu (w.extractLsb' 21 5) (w.extractLsb' 16 5) (w.extractLsb' 0 16))
  | 38 => .ok (.stb (w.extractLsb' 21 5) (w.extractLsb' 16 5) (w.extractLsb' 0 16))
  | 39 => .ok (.stbu (w.extractLsb' 21 5) (w.extractLsb' 16 5) (w.extractLsb' 0 16))
  | 40 => .ok (.lhz (w.extractLsb' 21 5) (w.extractLsb' 16 5) (w.extractLsb' 0 16))
  | 41 => .ok (.lhzu (w.extractLsb' 21 5) (w.extractLsb' 16 5) (w.extractLsb' 0 16))
  | 42 => .ok (.lha (w.extractLsb' 21 5) (w.extractLsb' 16 5) (w.extractLsb' 0 16))
  | 43 => .ok (.lhau (w.extractLsb' 21 5) (w.extractLsb' 16 5) (w.extractLsb' 0 16))
  | 44 => .ok (.sth (w.extractLsb' 21 5) (w.extractLsb' 16 5) (w.extractLsb' 0 16))
  | 45 => .ok (.sthu (w.extractLsb' 21 5) (w.extractLsb' 16 5) (w.extractLsb' 0 16))
  | 46 => .ok (.lmw (w.extractLsb' 21 5) (w.extractLsb' 16 5) (w.extractLsb' 0 16))
  | 47 => .ok (.stmw (w.extractLsb' 21 5) (w.extractLsb' 16 5) (w.extractLsb' 0 16))
  | 48 => .ok (.lfs (w.extractLsb' 21 5) (w.extractLsb' 16 5) (w.extractLsb' 0 16))
  | 49 => .ok (.lfsu (w.extractLsb' 21 5) (w.extractLsb' 16 5) (w.extractLsb' 0 16))
  | 50 => .ok (.lfd (w.extractLsb' 21 5) (w.extractLsb' 16 5) (w.extractLsb' 0 16))
  | 51 => .ok (.lfdu (w.extractLsb' 21 5) (w.extractLsb' 16 5) (w.extractLsb' 0 16))
  | 52 => .ok (.stfs (w.extractLsb' 21 5) (w.extractLsb' 16 5) (w.extractLsb' 0 16))
  | 53 => .ok (.stfsu (w.extractLsb' 21 5) (w.extractLsb' 16 5) (w.extractLsb' 0 16))
  | 54 => .ok (.stfd (w.extractLsb' 21 5) (w.extractLsb' 16 5) (w.extractLsb' 0 16))
  | 55 => .ok (.stfdu (w.extractLsb' 21 5) (w.extractLsb' 16 5) (w.extractLsb' 0 16))
  | 58 => .error .sixtyFourBit
  | 59 => decode59 w
  | 62 => .error .sixtyFourBit
  | 63 => decode63 w
  | _ => .error .illegalPrimary

/-- A word from four bytes, the lowest address first: bits 0:7 are the byte at the lowest address (R260). -/
def wordOfBytes (b0 b1 b2 b3 : Byte) : Word := b0 ++ b1 ++ b2 ++ b3

/-- The four bytes of a word, the most significant first. -/
def bytesOfWord (w : Word) : List Byte :=
  [w.extractLsb' 24 8, w.extractLsb' 16 8, w.extractLsb' 8 8, w.extractLsb' 0 8]

/-- The first instruction of a string of bytes, and the bytes after it. -/
def decodeBytes : List Byte → Except DecodeError (Instr × List Byte)
  | b0 :: b1 :: b2 :: b3 :: rest =>
    match decode (wordOfBytes b0 b1 b2 b3) with
    | .ok i => .ok (i, rest)
    | .error e => .error e
  | _ => .error .tooShort

/-- The instruction the decoder reads from an instruction of `nbits` bits whose bits, numbered from the least
significant of its one word, are `w`; the bits above `nbits` are 0. -/
def decodeTableWord (nbits w : Nat) : Option Instr :=
  match decodeBytes (bytesOfWord (BitVec.ofNat 32 (w % 2 ^ nbits))) with
  | .ok (i, _) => some i
  | .error _ => none

/-- One bit as a bit vector. -/
def bit1 (b : Bool) : BitVec 1 := BitVec.ofBool b

/-- D form (R267). -/
def encD (op : BitVec 6) (a b : BitVec 5) (imm : BitVec 16) : Word := op ++ a ++ b ++ imm

/-- X and XL forms (R268, R269). -/
def encX (op : BitVec 6) (a b c : BitVec 5) (xo : BitVec 10) (r : Bool) : Word :=
  op ++ a ++ b ++ c ++ xo ++ bit1 r

/-- XFX form with the whole field 11:20 (R270). -/
def encXFX (op : BitVec 6) (a : BitVec 5) (spr xo : BitVec 10) (r : Bool) : Word :=
  op ++ a ++ spr ++ xo ++ bit1 r

/-- XO form (R272). -/
def encXO (a b c : BitVec 5) (oe : Bool) (xo : BitVec 9) (r : Bool) : Word :=
  31#6 ++ a ++ b ++ c ++ bit1 oe ++ xo ++ bit1 r

/-- A and M forms: five fields of five bits (R273, R274). -/
def encA (op : BitVec 6) (a b c d e : BitVec 5) (r : Bool) : Word :=
  op ++ a ++ b ++ c ++ d ++ e ++ bit1 r

/-- The word of an instruction, its must-be-zero bits zero (R264 to R274). -/
def encode : Instr → Word
  | .addi rD rA simm => encD 14 rD rA simm
  | .addis rD rA simm => encD 15 rD rA simm
  | .addic rD rA simm => encD 12 rD rA simm
  | .addicRec rD rA simm => encD 13 rD rA simm
  | .subfic rD rA simm => encD 8 rD rA simm
  | .mulli rD rA simm => encD 7 rD rA simm
  | .add rD rA rB oe rc => encXO rD rA rB oe 266 rc
  | .subf rD rA rB oe rc => encXO rD rA rB oe 40 rc
  | .addc rD rA rB oe rc => encXO rD rA rB oe 10 rc
  | .subfc rD rA rB oe rc => encXO rD rA rB oe 8 rc
  | .adde rD rA rB oe rc => encXO rD rA rB oe 138 rc
  | .subfe rD rA rB oe rc => encXO rD rA rB oe 136 rc
  | .addme rD rA oe rc => encXO rD rA 0 oe 234 rc
  | .subfme rD rA oe rc => encXO rD rA 0 oe 232 rc
  | .addze rD rA oe rc => encXO rD rA 0 oe 202 rc
  | .subfze rD rA oe rc => encXO rD rA 0 oe 200 rc
  | .neg rD rA oe rc => encXO rD rA 0 oe 104 rc
  | .mullw rD rA rB oe rc => encXO rD rA rB oe 235 rc
  | .mulhw rD rA rB rc => encXO rD rA rB false 75 rc
  | .mulhwu rD rA rB rc => encXO rD rA rB false 11 rc
  | .divw rD rA rB oe rc => encXO rD rA rB oe 491 rc
  | .divwu rD rA rB oe rc => encXO rD rA rB oe 459 rc
  | .cmpi crfD l rA simm => encD 11 (crfD ++ 0#1 ++ bit1 l) rA simm
  | .cmp crfD l rA rB => encX 31 (crfD ++ 0#1 ++ bit1 l) rA rB 0 false
  | .cmpli crfD l rA uimm => encD 10 (crfD ++ 0#1 ++ bit1 l) rA uimm
  | .cmpl crfD l rA rB => encX 31 (crfD ++ 0#1 ++ bit1 l) rA rB 32 false
  | .andiRec rS rA uimm => encD 28 rS rA uimm
  | .andisRec rS rA uimm => encD 29 rS rA uimm
  | .ori rS rA uimm => encD 24 rS rA uimm
  | .oris rS rA uimm => encD 25 rS rA uimm
  | .xori rS rA uimm => encD 26 rS rA uimm
  | .xoris rS rA uimm => encD 27 rS rA uimm
  | .and rS rA rB rc => encX 31 rS rA rB 28 rc
  | .or rS rA rB rc => encX 31 rS rA rB 444 rc
  | .xor rS rA rB rc => encX 31 rS rA rB 316 rc
  | .nand rS rA rB rc => encX 31 rS rA rB 476 rc
  | .nor rS rA rB rc => encX 31 rS rA rB 124 rc
  | .eqv rS rA rB rc => encX 31 rS rA rB 284 rc
  | .andc rS rA rB rc => encX 31 rS rA rB 60 rc
  | .orc rS rA rB rc => encX 31 rS rA rB 412 rc
  | .extsb rS rA rc => encX 31 rS rA 0 954 rc
  | .extsh rS rA rc => encX 31 rS rA 0 922 rc
  | .cntlzw rS rA rc => encX 31 rS rA 0 26 rc
  | .rlwinm rS rA sh mb me rc => encA 21 rS rA sh mb me rc
  | .rlwnm rS rA rB mb me rc => encA 23 rS rA rB mb me rc
  | .rlwimi rS rA sh mb me rc => encA 20 rS rA sh mb me rc
  | .slw rS rA rB rc => encX 31 rS rA rB 24 rc
  | .srw rS rA rB rc => encX 31 rS rA rB 536 rc
  | .srawi rS rA sh rc => encX 31 rS rA sh 824 rc
  | .sraw rS rA rB rc => encX 31 rS rA rB 792 rc
  | .fadd frD frA frB rc => encA 63 frD frA frB 0 21 rc
  | .fadds frD frA frB rc => encA 59 frD frA frB 0 21 rc
  | .fsub frD frA frB rc => encA 63 frD frA frB 0 20 rc
  | .fsubs frD frA frB rc => encA 59 frD frA frB 0 20 rc
  | .fmul frD frA frC rc => encA 63 frD frA 0 frC 25 rc
  | .fmuls frD frA frC rc => encA 59 frD frA 0 frC 25 rc
  | .fdiv frD frA frB rc => encA 63 frD frA frB 0 18 rc
  | .fdivs frD frA frB rc => encA 59 frD frA frB 0 18 rc
  | .fres frD frB rc => encA 59 frD 0 frB 0 24 rc
  | .frsqrte frD frB rc => encA 63 frD 0 frB 0 26 rc
  | .fsel frD frA frB frC rc => encA 63 frD frA frB frC 23 rc
  | .fmadd frD frA frB frC rc => encA 63 frD frA frB frC 29 rc
  | .fmadds frD frA frB frC rc => encA 59 frD frA frB frC 29 rc
  | .fmsub frD frA frB frC rc => encA 63 frD frA frB frC 28 rc
  | .fmsubs frD frA frB frC rc => encA 59 frD frA frB frC 28 rc
  | .fnmadd frD frA frB frC rc => encA 63 frD frA frB frC 31 rc
  | .fnmadds frD frA frB frC rc => encA 59 frD frA frB frC 31 rc
  | .fnmsub frD frA frB frC rc => encA 63 frD frA frB frC 30 rc
  | .fnmsubs frD frA frB frC rc => encA 59 frD frA frB frC 30 rc
  | .frsp frD frB rc => encX 63 frD 0 frB 12 rc
  | .fctiw frD frB rc => encX 63 frD 0 frB 14 rc
  | .fctiwz frD frB rc => encX 63 frD 0 frB 15 rc
  | .fcmpu crfD frA frB rc => encX 63 (crfD ++ 0#2) frA frB 0 rc
  | .fcmpo crfD frA frB rc => encX 63 (crfD ++ 0#2) frA frB 32 rc
  | .mffs frD rc => encX 63 frD 0 0 583 rc
  | .mcrfs crfD crfS => encX 63 (crfD ++ 0#2) (crfS ++ 0#2) 0 64 false
  | .mtfsfi crfD imm rc => encX 63 (crfD ++ 0#2) 0 (imm ++ 0#1) 134 rc
  | .mtfsf fm frB rc => 63#6 ++ 0#1 ++ fm ++ 0#1 ++ frB ++ 711#10 ++ bit1 rc
  | .mtfsb0 crbD rc => encX 63 crbD 0 0 70 rc
  | .mtfsb1 crbD rc => encX 63 crbD 0 0 38 rc
  | .fmr frD frB rc => encX 63 frD 0 frB 72 rc
  | .fneg frD frB rc => encX 63 frD 0 frB 40 rc
  | .fabs frD frB rc => encX 63 frD 0 frB 264 rc
  | .fnabs frD frB rc => encX 63 frD 0 frB 136 rc
  | .lbz rD rA d => encD 34 rD rA d
  | .lbzx rD rA rB rc => encX 31 rD rA rB 87 rc
  | .lbzu rD rA d => encD 35 rD rA d
  | .lbzux rD rA rB rc => encX 31 rD rA rB 119 rc
  | .lhz rD rA d => encD 40 rD rA d
  | .lhzx rD rA rB rc => encX 31 rD rA rB 279 rc
  | .lhzu rD rA d => encD 41 rD rA d
  | .lhzux rD rA rB rc => encX 31 rD rA rB 311 rc
  | .lha rD rA d => encD 42 rD rA d
  | .lhax rD rA rB rc => encX 31 rD rA rB 343 rc
  | .lhau rD rA d => encD 43 rD rA d
  | .lhaux rD rA rB rc => encX 31 rD rA rB 375 rc
  | .lwz rD rA d => encD 32 rD rA d
  | .lwzx rD rA rB rc => encX 31 rD rA rB 23 rc
  | .lwzu rD rA d => encD 33 rD rA d
  | .lwzux rD rA rB rc => encX 31 rD rA rB 55 rc
  | .stb rS rA d => encD 38 rS rA d
  | .stbx rS rA rB rc => encX 31 rS rA rB 215 rc
  | .stbu rS rA d => encD 39 rS rA d
  | .stbux rS rA rB rc => encX 31 rS rA rB 247 rc
  | .sth rS rA d => encD 44 rS rA d
  | .sthx rS rA rB rc => encX 31 rS rA rB 407 rc
  | .sthu rS rA d => encD 45 rS rA d
  | .sthux rS rA rB rc => encX 31 rS rA rB 439 rc
  | .stw rS rA d => encD 36 rS rA d
  | .stwx rS rA rB rc => encX 31 rS rA rB 151 rc
  | .stwu rS rA d => encD 37 rS rA d
  | .stwux rS rA rB rc => encX 31 rS rA rB 183 rc
  | .lhbrx rD rA rB rc => encX 31 rD rA rB 790 rc
  | .lwbrx rD rA rB rc => encX 31 rD rA rB 534 rc
  | .sthbrx rS rA rB rc => encX 31 rS rA rB 918 rc
  | .stwbrx rS rA rB rc => encX 31 rS rA rB 662 rc
  | .lmw rD rA d => encD 46 rD rA d
  | .stmw rS rA d => encD 47 rS rA d
  | .lswi rD rA nb rc => encX 31 rD rA nb 597 rc
  | .lswx rD rA rB rc => encX 31 rD rA rB 533 rc
  | .stswi rS rA nb rc => encX 31 rS rA nb 725 rc
  | .stswx rS rA rB rc => encX 31 rS rA rB 661 rc
  | .lfs frD rA d => encD 48 frD rA d
  | .lfsx frD rA rB rc => encX 31 frD rA rB 535 rc
  | .lfsu frD rA d => encD 49 frD rA d
  | .lfsux frD rA rB rc => encX 31 frD rA rB 567 rc
  | .lfd frD rA d => encD 50 frD rA d
  | .lfdx frD rA rB rc => encX 31 frD rA rB 599 rc
  | .lfdu frD rA d => encD 51 frD rA d
  | .lfdux frD rA rB rc => encX 31 frD rA rB 631 rc
  | .stfs frS rA d => encD 52 frS rA d
  | .stfsx frS rA rB rc => encX 31 frS rA rB 663 rc
  | .stfsu frS rA d => encD 53 frS rA d
  | .stfsux frS rA rB rc => encX 31 frS rA rB 695 rc
  | .stfd frS rA d => encD 54 frS rA d
  | .stfdx frS rA rB rc => encX 31 frS rA rB 727 rc
  | .stfdu frS rA d => encD 55 frS rA d
  | .stfdux frS rA rB rc => encX 31 frS rA rB 759 rc
  | .stfiwx frS rA rB rc => encX 31 frS rA rB 983 rc
  | .b li aa lk => 18#6 ++ li ++ bit1 aa ++ bit1 lk
  | .bc bo bi bd aa lk => 16#6 ++ bo ++ bi ++ bd ++ bit1 aa ++ bit1 lk
  | .bclr bo bi lk => encX 19 bo bi 0 16 lk
  | .bcctr bo bi lk => encX 19 bo bi 0 528 lk
  | .crand crbD crbA crbB => encX 19 crbD crbA crbB 257 false
  | .cror crbD crbA crbB => encX 19 crbD crbA crbB 449 false
  | .crxor crbD crbA crbB => encX 19 crbD crbA crbB 193 false
  | .crnand crbD crbA crbB => encX 19 crbD crbA crbB 225 false
  | .crnor crbD crbA crbB => encX 19 crbD crbA crbB 33 false
  | .creqv crbD crbA crbB => encX 19 crbD crbA crbB 289 false
  | .crandc crbD crbA crbB => encX 19 crbD crbA crbB 129 false
  | .crorc crbD crbA crbB => encX 19 crbD crbA crbB 417 false
  | .mcrf crfD crfS => encX 19 (crfD ++ 0#2) (crfS ++ 0#2) 0 0 false
  | .twi tcond rA simm => encD 3 tcond rA simm
  | .tw tcond rA rB => encX 31 tcond rA rB 4 false
  | .sc => 0x44000002#32
  | .rfi => encX 19 0 0 0 50 false
  | .mtmsr rS => encX 31 rS 0 0 146 false
  | .mfmsr rD => encX 31 rD 0 0 83 false
  | .mtcrf rS crm => encXFX 31 rS (0#1 ++ crm ++ 0#1) 144 false
  | .mcrxr crfD => encX 31 (crfD ++ 0#2) 0 0 512 false
  | .mfcr rD => encX 31 rD 0 0 19 false
  | .mtspr rS spr rc => encXFX 31 rS (sprField spr) 467 rc
  | .mfspr rD spr rc => encXFX 31 rD (sprField spr) 339 rc
  | .mftb rD tbr => encXFX 31 rD (sprField tbr) 371 false
  | .lwarx rD rA rB rc => encX 31 rD rA rB 20 rc
  | .stwcxRec rS rA rB rc => encX 31 rS rA rB 150 rc
  | .sync rc => encX 31 0 0 0 598 rc
  | .eieio => encX 31 0 0 0 854 false
  | .isync => encX 19 0 0 0 150 false
  | .dcbt rA rB => encX 31 0 rA rB 278 false
  | .dcbtst rA rB => encX 31 0 rA rB 246 false
  | .dcbz rA rB => encX 31 0 rA rB 1014 false
  | .dcbst rA rB => encX 31 0 rA rB 54 false
  | .dcbf rA rB => encX 31 0 rA rB 86 false
  | .icbi rA rB => encX 31 0 rA rB 982 false
  | .dcbi rA rB => encX 31 0 rA rB 470 false
  | .eciwx rD rA rB => encX 31 rD rA rB 310 false
  | .ecowx rS rA rB => encX 31 rS rA rB 438 false
  | .mtsr rS sr => encX 31 rS (0#1 ++ sr) 0 210 false
  | .mtsrin rS rB => encX 31 rS 0 rB 242 false
  | .mfsr rD sr => encX 31 rD (0#1 ++ sr) 0 595 false
  | .mfsrin rD rB => encX 31 rD 0 rB 659 false
  | .tlbie rB => encX 31 0 0 rB 306 false
  | .tlbsync => encX 31 0 0 0 566 false

end Sys2Proof
end

