-- ==== Sys2Proof/Machine/Bits.lean ====
section
/-! DEFINITION. Machine/Bits.lean: bits and fields counted from the most significant end (R11), bytes and values
(20_memory.md R134, R136). -/

namespace Sys2Proof.Machine

/-- Bit `i` of a register, bit 0 the most significant (R11). -/
def beBit {n : Nat} (w : BitVec n) (i : Nat) : Bool := w.getMsbD i

/-- The word with only bit `i` set (R11). -/
def beMask (i : Nat) : Word := 1#32 <<< (31 - i)

/-- Bit `i` of a word set to `b`. -/
def setBeBit (w : Word) (i : Nat) (b : Bool) : Word :=
  if b then w ||| beMask i else w &&& ~~~(beMask i)

/-- A bit as a word: 0 or 1. -/
def wordOfBool (b : Bool) : Word := if b then 1 else 0

/-- A 4-bit field of a word: field n is bits 4n to 4n + 3 (R276). -/
def getField4 (w : Word) (n : Nat) : BitVec 4 := (w >>> (28 - 4 * n)).setWidth 4

/-- The word with its 4-bit field n replaced. -/
def setField4 (w : Word) (n : Nat) (v : BitVec 4) : Word :=
  (w &&& ~~~(0xF#32 <<< (28 - 4 * n))) ||| (v.setWidth 32 <<< (28 - 4 * n))

/-- The mask of the 4-bit fields selected by an 8-bit field mask, its most significant bit selecting field 0
(R276: CRM and FM). -/
def fieldMask (fm : BitVec 8) : Word :=
  (List.range 8).foldl (fun m i => if fm.getMsbD i then m ||| (0xF#32 <<< (28 - 4 * i)) else m) 0

/-- Bytes, the most significant first, as a number. -/
def natOfBytes (l : List Byte) : Nat := l.foldl (fun a b => a * 256 + b.toNat) 0

/-- The `n` bytes of a number, the most significant first. -/
def bytesOfNat : Nat → Nat → List Byte
  | 0, _ => []
  | n + 1, v => BitVec.ofNat 8 (v / 256 ^ n) :: bytesOfNat n v

/-- A word's two low bits made zero. -/
def alignWord (w : Word) : Word := w &&& 0xFFFFFFFC

/-- The word's address is a multiple of four (R131). -/
def wordAligned (ea : Word) : Bool := ea.extractLsb' 0 2 == 0

/-- The byte offset of an address in its 32-byte block. -/
def blockOffset (pa : Word) : Nat := (pa.extractLsb' 0 5).toNat

/-- The physical block number of an address (R164). -/
def blockOf (pa : Word) : BitVec 27 := pa.extractLsb' 5 27

/-- The address of a block's first byte. -/
def blockAddr (b : BitVec 27) : Word := b ++ 0#5

end Sys2Proof.Machine
end

