-- ==== Sys2Proof/Config.lean ====
section
/-! DEFINITION. Config.lean: what a part fixes, and the free values.

A free value stands for `undefined(n)` of 00_scope.md R15: the spec leaves the value open and the machine goes
on. Each is an opaque constant, so that nothing can be proved of its value. The numbered ones are applied to
`State.fresh`, a counter that every draw advances (log entry 7). -/

namespace Sys2Proof.Config

/-- PVR[16:31], the revision of the part (R3, 92 D1; log entry 41). -/
opaque pvrRevision : BitVec 16

/-- The PLL_CFG[0:3] pins, read in HID1[0:3] (R57, R868, 92 D2; log entry 41). -/
opaque pllCfg : BitVec 4

/-- An undefined word, draw number n. -/
opaque freeWord : Nat → Word

/-- An undefined double word, draw number n. -/
opaque freeDword : Nat → Dword

/-- An undefined bit, draw number n. -/
opaque freeBit : Nat → Bool

/-- What 32 bytes of storage that is no ordinary memory answer to a read, draw number n (92 D5; log entry 4). -/
opaque freeBlock : Nat → Vector Byte 32

/-- An undefined natural number, draw number n: how long the prefix of an interrupted multiple or string
instruction is (92 D18). -/
opaque freeNat : Nat → Nat

/-- The undefined quotient of a signed division, of its operands (R342; log entry 39). -/
opaque divwFree : Word → Word → Word

/-- The undefined quotient of an unsigned division, of its operands (R343; log entry 39). -/
opaque divwuFree : Word → Word → Word

/-- The undefined LT, GT and EQ bits of CR0 after a division of R342, of its operands (log entry 39). -/
opaque divwCr0Free : Word → Word → BitVec 3

/-- The undefined LT, GT and EQ bits of CR0 after a division of R343, of its operands (log entry 39). -/
opaque divwuCr0Free : Word → Word → BitVec 3

/-- The parameter FRES_EST of 92 D16: what the part's estimator answers for 1/x (log entry 26). -/
opaque fresEstimate : Dword → Dword

/-- The parameter FRSQRTE_EST of 92 D16 (log entry 26). -/
opaque frsqrteEstimate : Dword → Dword

/-- The word a store of single precision writes where SINGLE(frS) is undefined, of the register's value (R471; log
entry 27). -/
opaque stfsFree : Dword → Word

end Sys2Proof.Config
end

