-- ==== Sys2Proof/Machine/State.lean ====
section
/-! DEFINITION. Machine/State.lean: everything the spec gives the machine (10_state.md), as plain data, and the
machine after reset (R110, R892). Bit 0 is the most significant bit of every register (R11). -/

namespace Sys2Proof.Machine

/-- A BAT pair, upper and lower (R42, R205, R206). -/
structure Bat where
  upper : Word
  lower : Word
deriving DecidableEq, Repr

/-- The registers an exception saves into, and SPRG0 to SPRG3 (R45 to R49). -/
structure ExcRegs where
  srr0 : Word
  srr1 : Word
  dsisr : Word
  dar : Word
  sprg0 : Word
  sprg1 : Word
  sprg2 : Word
  sprg3 : Word
deriving DecidableEq, Repr

/-- The registers of the memory management units (R42 to R44). -/
structure MmuRegs where
  ibat : Vector Bat 4
  dbat : Vector Bat 4
  sdr1 : Word
  sr : Vector Word 16
deriving DecidableEq, Repr

/-- Configuration, debug and identification registers (R51, R52, R54 to R56). -/
structure CfgRegs where
  dabr : Word
  ear : Word
  iabr : Word
  pir : Word
  hid0 : Word
deriving DecidableEq, Repr

/-- The performance monitor (R58 to R60, R832, R840). `frozen` is the stop of MMCR0[DISCOUNT], `released` says
that the hold of MMCR0[PMCTRIGGER] has ended, `pending` is the interrupt condition. -/
structure PerfMon where
  mmcr0 : Word
  mmcr1 : Word
  pmc1 : Word
  pmc2 : Word
  pmc3 : Word
  pmc4 : Word
  sia : Word
  sda : Word
  frozen : Bool
  released : Bool
  pending : Bool
deriving DecidableEq, Repr

/-- The states of a data cache block that is present (R165); an absent block is invalid. -/
inductive Mesi where
  | modified
  | exclusive
  | shared
deriving DecidableEq, Repr

/-- A block of the data cache: its physical block number (address / 32), its 32 bytes, its state (R164). -/
structure DLine where
  block : BitVec 27
  data : Vector Byte 32
  mesi : Mesi
deriving DecidableEq, Repr

/-- A valid block of the instruction cache (R164). -/
structure ILine where
  block : BitVec 27
  data : Vector Byte 32
deriving DecidableEq, Repr

/-- A valid TLB entry (R240): the set EA[14:19], the tag EA[4:13], and what it holds of the PTE. -/
structure TlbEntry where
  index : BitVec 6
  tag : BitVec 10
  vsid : BitVec 24
  rpn : BitVec 20
  changed : Bool
  wimg : BitVec 4
  pp : BitVec 2
deriving DecidableEq, Repr

/-- The causes of a machine check (R746, R748). -/
structure McCause where
  icParity : Bool
  dcParity : Bool
  mcp : Bool
  tea : Bool
  dataParity : Bool
  addrParity : Bool
deriving DecidableEq, Repr

/-- No cause. -/
def McCause.none : McCause := ⟨false, false, false, false, false, false⟩

/-- Pending conditions and the states in which no instruction runs (R66, R68). -/
structure Latches where
  decPending : Bool
  sreset : Bool
  mc : McCause
  halted : Bool
  checkstop : Bool
deriving DecidableEq, Repr

/-- The levels of the input pins a program can notice (R871), and whether another cache answers SHD to a read
of this processor (R194). -/
structure Pins where
  int : Bool
  smi : Bool
  tben : Bool
  run : Bool
  shd : Bool
deriving DecidableEq, Repr

/-- The kinds of bus operation (R194, R195). -/
inductive BusKind where
  | read
  | readAtomic
  | rwitm
  | rwitmAtomic
  | rwnitc
  | kill
  | flush
  | clean
  | writeFlush
  | writeFlushAtomic
  | writeKill
  | lwarxSet
  | icbi
  | tlbInvalidate
  | sync
  | tlbSync
  | eieio
deriving DecidableEq, Repr

/-- An operation of another bus master (R177, R195): its kind, whether GBL is asserted, its address, and the
bytes it writes to memory from that address on, if any. -/
structure Snoop where
  kind : BusKind
  gbl : Bool
  addr : Word
  data : List Byte
deriving DecidableEq, Repr

/-- What the environment does at one boundary between two instructions (92 D6). The MODEL's own type. -/
structure Input where
  hreset : Bool
  sreset : Bool
  ckstp : Bool
  mc : McCause
  pins : Pins
  ticks : Nat
  snoops : List Snoop
  inc1 : Nat
  inc2 : Nat
  inc3 : Nat
  inc4 : Nat
  sampledIa : Word
  sampledDa : Word
deriving DecidableEq, Repr

/-- What answers at a range of physical addresses (92 D5). -/
inductive RegionKind where
  /-- Ordinary bytes. -/
  | ram
  /-- Ordinary bytes that a write leaves. -/
  | rom
  /-- A read is the environment's input, a write an event that it sees. -/
  | device
  /-- Nothing: an access is answered with TEA. -/
  | hole
deriving DecidableEq, Repr

/-- A range of 32-byte blocks, the first to the last, of the platform's memory map (92 D5; log entry 4). -/
structure Region where
  first : BitVec 27
  last : BitVec 27
  kind : RegionKind
deriving DecidableEq, Repr

/-- What the processor puts on its bus (R7, R871). -/
inductive BusOp where
  /-- A tenure: kind, physical address, the W, I and M attributes shown, whether GBL is asserted, and how many bytes
  move: 32 in a burst, 0 in an address-only tenure, otherwise a single beat (R161, R191, R194). -/
  | tenure (kind : BusKind) (addr : Word) (wim : BitVec 3) (gbl : Bool) (size : Nat)
  /-- The bytes a write brings to a device, with their physical addresses (92 D5). -/
  | deviceWrite (bytes : List (Word × Byte))
  /-- The external control read of `eciwx`: resource ID and address (R169). -/
  | externalRead (rid : BitVec 4) (addr : Word)
  /-- The external control write of `ecowx`, with the word sent. -/
  | externalWrite (rid : BitVec 4) (addr : Word) (data : Word)
  /-- A direct-store operation: the two address packets with their XATC codes and the bytes sent (R221, R255). -/
  | directStore (packet0 : Word) (xatc0 : BitVec 8) (packet1 : Word) (xatc1 : BitVec 8) (data : List Byte)
deriving DecidableEq, Repr

/-- The whole machine. `map` is the platform's memory map (92 D5); the last eight fields are the MODEL's own: the
inputs to come, the bus log, the count of free values drawn, whether this instruction has taken an exception, the
address of the last instruction that completed, whether an access since the last boundary was answered with TEA,
which FPRs a single-precision operation wrote last (R473; log entry 53), and whether the last instruction was an implicit
branch (R917; log entry 18). -/
structure State where
  gpr : Vector Word 32
  fpr : Vector Dword 32
  cr : Word
  fpscr : Word
  xer : Word
  lr : Word
  ctr : Word
  pc : Word
  msr : Word
  tb : Dword
  dec : Word
  exc : ExcRegs
  mmu : MmuRegs
  cfg : CfgRegs
  pm : PerfMon
  resv : Bool
  resvAddr : BitVec 27
  itlb : List TlbEntry
  dtlb : List TlbEntry
  icache : List ILine
  dcache : List DLine
  latches : Latches
  pins : Pins
  mem : List Host.Cell
  map : List Region
  inputs : List Input
  busLog : List BusOp
  fresh : Nat
  took : Bool
  lastIa : Word
  tea : Bool
  fprSingle : Vector Bool 32
  moved : Bool
deriving DecidableEq, Repr

/-- Why the machine stops with no next state. -/
inductive Fault where
  /-- The processor is in checkstop and nothing is left in the input list that could reset it (R747). Raised
  by `step`. Safe: the hardware does not go on either (log entry 19). -/
  | checkstop
deriving DecidableEq, Repr

/-- Why the model gives an execution no meaning. -/
inductive Refusal where
  /-- An instruction the model does not reach, by its mnemonic. Raised by no arm. Safe. -/
  | notModelled (mnemonic : String)
  /-- A misaligned little-endian access to a direct-store segment (R138). Raised by loads and stores. Safe
  (log entry 15). -/
  | littleEndianDirectStore
  /-- Two valid BAT pairs of one array match the address presented (R211). Raised by any access. Safe
  (log entry 16). -/
  | overlappingBats
  /-- A valid BAT pair with a BL, BEPI or BRPN outside the architecture's (R207), in the address's 256-Mbyte
  region. Raised by any translated access. Safe (log entry 17). -/
  | illegalBatForm
  /-- The fetch after an implicit branch: the instruction before has moved the physical address it is fetched from
  (R235, R917). Raised by `step` in place of that fetch, by no instruction: the one that moves it has its whole effect.
  Safe (log entry 18). -/
  | implicitBranch
deriving DecidableEq, Repr

/-- The outcome of an instruction or a step. -/
abbrev Result := Host.Outcome State Fault Refusal

/-- The pins at reset: no interrupt asserted, TBEN and RUN asserted, no other cache (log entry 9). -/
def Pins.reset : Pins := ⟨false, false, true, true, false⟩

/-- The machine after a hard reset: R110 and R892 where they give a value, and where they say "undefined" the
values of log entries 1, 2 and 3 (DESIGN CHOICE: zero, and nothing cached). No region is named in the memory map: it is
all RAM (log entry 4). -/
def State.reset : State where
  gpr := Vector.replicate 32 0
  fpr := Vector.replicate 32 0
  cr := 0
  fpscr := 0
  xer := 0
  lr := 0
  ctr := 0
  pc := 0xFFF00100
  msr := 0x00000040
  tb := 0
  dec := 0
  exc := ⟨0, 0, 0, 0, 0, 0, 0, 0⟩
  mmu := ⟨Vector.replicate 4 ⟨0, 0⟩, Vector.replicate 4 ⟨0, 0⟩, 0, Vector.replicate 16 0⟩
  cfg := ⟨0, 0, 0, 0, 0⟩
  pm := ⟨0, 0, 0, 0, 0, 0, 0, 0, false, false, false⟩
  resv := false
  resvAddr := 0
  itlb := []
  dtlb := []
  icache := []
  dcache := []
  latches := ⟨false, false, McCause.none, false, false⟩
  pins := Pins.reset
  mem := []
  map := []
  inputs := []
  busLog := []
  fresh := 0
  took := false
  lastIa := 0
  tea := false
  fprSingle := Vector.replicate 32 false
  moved := false

end Sys2Proof.Machine
end

