-- ==== Sys2Proof/Machine/Memory.lean ====
section
/-! DEFINITION. Machine/Memory.lean: physical memory (R62, R130), a list of the bytes that differ from what an
unlisted address reads as, in rising order of address. -/

namespace Sys2Proof.Machine

/-- What a byte that nothing has written reads as: DESIGN CHOICE, unsafe (log entry 2). -/
def Memory.unlisted : Byte := 0

/-- The byte at an address. -/
def Memory.read : List Host.Cell → Nat → Byte
  | [], _ => Memory.unlisted
  | (a, b) :: t, k => if k < a then Memory.unlisted else if k = a then b else Memory.read t k

/-- Writes one byte, keeping the canonical form. -/
def Memory.write : List Host.Cell → Nat → Byte → List Host.Cell
  | [], k, v => if v = Memory.unlisted then [] else [(k, v)]
  | (a, b) :: t, k, v =>
    if k < a then (if v = Memory.unlisted then (a, b) :: t else (k, v) :: (a, b) :: t)
    else if k = a then (if v = Memory.unlisted then t else (k, v) :: t)
    else (a, b) :: Memory.write t k v

/-- Writes bytes at rising addresses, wrapping at 2^32 (R133). -/
def Memory.writeBytes : List Host.Cell → Word → List Byte → List Host.Cell
  | m, _, [] => m
  | m, a, b :: t => Memory.writeBytes (Memory.write m a.toNat b) (a + 1) t

/-- Reads `n` bytes at rising addresses. -/
def Memory.readBytes (m : List Host.Cell) : Nat → Word → List Byte
  | 0, _ => []
  | n + 1, a => Memory.read m a.toNat :: Memory.readBytes m n (a + 1)

/-- Every listed address is above `k`, rising, inside the 2^32 bytes, and no entry is the unlisted byte. -/
def Memory.wfAbove : Nat → List Host.Cell → Bool
  | _, [] => true
  | k, (a, b) :: t => decide (k ≤ a) && decide (a < 4294967296) && decide (b ≠ Memory.unlisted)
      && Memory.wfAbove (a + 1) t

/-- The canonical form of memory. -/
def Memory.wf (m : List Host.Cell) : Bool := Memory.wfAbove 0 m

end Sys2Proof.Machine
end

