-- ==== Sys2Proof/Machine/Ops.lean ====
section
/-! DEFINITION. Machine/Ops.lean: the named operations on registers, free values, the bus log; taking an
exception (60_exceptions.md R736) and returning from one (44_system.md R655). -/

namespace Sys2Proof.Machine

/-! ### Registers -/

/-- A GPR (R30). -/
def State.readGpr (s : State) (r : Reg) : Word := s.gpr[r.toNat]'r.isLt

/-- Writes a GPR. -/
def State.writeGpr (s : State) (r : Reg) (v : Word) : State := { s with gpr := s.gpr.set r.toNat v r.isLt }

/-- An FPR (R31). -/
def State.readFpr (s : State) (r : Reg) : Dword := s.fpr[r.toNat]'r.isLt

/-- A single-precision operation wrote the FPR last: the word `stfiwx` stores from it is undefined (R473, 93 U3; log
entry 53). -/
def State.fprIsSingle (s : State) (r : Reg) : Bool := s.fprSingle[r.toNat]'r.isLt

/-- Writes an FPR by a single-precision operation or by another. -/
def State.putFpr (s : State) (single : Bool) (r : Reg) (v : Dword) : State :=
  { s with fpr := s.fpr.set r.toNat v r.isLt, fprSingle := s.fprSingle.set r.toNat single r.isLt }

/-- Writes an FPR by an operation that is not of single precision. -/
def State.writeFpr (s : State) (r : Reg) (v : Dword) : State := s.putFpr false r v

/-- `(rA|0)`: the value 0 where the field is 0 (R13). -/
def State.baseOrZero (s : State) (rA : Reg) : Word := if rA = 0 then 0 else s.readGpr rA

/-- A segment register (R44). -/
def State.readSr (s : State) (n : BitVec 4) : Word := s.mmu.sr[n.toNat]'n.isLt

/-- Writes a segment register; with T = 0 bits 4:7 are reserved and read 0 (R220, R14). -/
def State.writeSr (s : State) (n : BitVec 4) (v : Word) : State :=
  { s with mmu := { s.mmu with sr := s.mmu.sr.set n.toNat (if beBit v 0 then v else v &&& 0xF0FFFFFF) n.isLt } }

/-- Goes on to the next instruction in the program (R37). -/
def State.advance (s : State) : State := { s with pc := s.pc + 4 }

/-- The address of the next instruction in the program (R15: CIA + 4). -/
def State.nextAddr (s : State) : Word := s.pc + 4

/-! ### The machine state register (R39) -/

def State.msrEE (s : State) : Bool := beBit s.msr 16
def State.msrPR (s : State) : Bool := beBit s.msr 17
def State.msrFP (s : State) : Bool := beBit s.msr 18
def State.msrME (s : State) : Bool := beBit s.msr 19
def State.msrFE (s : State) : Bool := beBit s.msr 20 || beBit s.msr 23
def State.msrSE (s : State) : Bool := beBit s.msr 21
def State.msrBE (s : State) : Bool := beBit s.msr 22
def State.msrIR (s : State) : Bool := beBit s.msr 26
def State.msrDR (s : State) : Bool := beBit s.msr 27
def State.msrPM (s : State) : Bool := beBit s.msr 29
def State.msrLE (s : State) : Bool := beBit s.msr 31
def State.msrPOW (s : State) : Bool := beBit s.msr 13

/-- The big-endian address of an aligned word in storage: in little-endian mode bit 29 is complemented (R136, R142). -/
def State.mungeWord (s : State) (pa : Word) : Word := if s.msrLE then pa ^^^ 4 else pa

/-- The MSR bits that are storage: bits 0:12, 14, 24 and 28 read 0 (R39, 92 D8; log entry 8). -/
def msrMask : Word := 0x0005FF77

/-! ### Free values (log entry 7) -/

/-- Draws an undefined word. -/
def State.drawWord (s : State) : Word × State := (Config.freeWord s.fresh, { s with fresh := s.fresh + 1 })

/-- Draws an undefined double word. -/
def State.drawDword (s : State) : Dword × State := (Config.freeDword s.fresh, { s with fresh := s.fresh + 1 })

/-- Draws an undefined bit. -/
def State.drawBit (s : State) : Bool × State := (Config.freeBit s.fresh, { s with fresh := s.fresh + 1 })

/-- Draws the bytes of a block that is no ordinary memory (92 D5). -/
def State.drawBlock (s : State) : Vector Byte 32 × State := (Config.freeBlock s.fresh, { s with fresh := s.fresh + 1 })

/-- Draws an undefined number that is at most `k`. -/
def State.drawUpTo (s : State) (k : Nat) : Nat × State :=
  (min (Config.freeNat s.fresh) k, { s with fresh := s.fresh + 1 })

/-- GPR `r` becomes undefined. -/
def State.undefineGpr (s : State) (r : Reg) : State := s.drawWord.2.writeGpr r s.drawWord.1

/-- CR field `n` becomes undefined. -/
def State.undefineCrField (s : State) (n : Nat) : State :=
  { s.drawWord.2 with cr := setField4 s.cr n (s.drawWord.1.setWidth 4) }

/-- CR0 becomes undefined when bit 31 is not what the instruction asks for (R293, R295, R503; log entry 6). -/
def State.badRecordBit (s : State) (bad : Bool) : State := if bad then s.undefineCrField 0 else s

/-- Puts an operation in the bus log (log entry 48). -/
def State.logBus (s : State) (op : BusOp) : State := { s with busLog := op :: s.busLog }

/-- Logs a tenure of a data access, cache operation or broadcast: GBL follows the M attribute (R161). -/
def State.logTenure (s : State) (k : BusKind) (pa : Word) (wim : BitVec 3) (size : Nat) : State :=
  s.logBus (.tenure k pa wim (wim.getLsbD 0) size)

/-- A broadcast that has no block: WIM = xx1, no bytes; its address is the MODEL's 0 where it has none (R194; log
entry 48). -/
def State.broadcast (s : State) (k : BusKind) (addr : Word) : State := s.logTenure k addr 0b001 0

/-! ### Taking an exception (R733, R736, R740, R741) -/

/-- The vector address of an offset: MSR[IP] chooses the prefix (R733). -/
def State.vector (s : State) (off : Word) : Word := (if beBit s.msr 25 then 0xFFF00000 else 0) + off

/-- The entry sequence of R736. `keep` is the mask of the MSR bits that stay, `copied` the mask of those that go
to SRR1. Taking an exception ends the halted state (R863) and is a real branch: nothing is fetched from the old stream
(R917; log entry 18). -/
def State.enter (s : State) (off srr0 info keep copied : Word) : State :=
  { s with
    exc := { s.exc with srr0 := alignWord srr0, srr1 := (s.msr &&& copied) ||| info }
    msr := (s.msr &&& keep) ||| wordOfBool (beBit s.msr 15)
    pc := s.vector off
    latches := { s.latches with halted := false }
    took := true
    moved := false }

/-- `TakeException(offset, srr0, info)` (R736). -/
def State.takeException (s : State) (off srr0 info : Word) : State :=
  s.enter off srr0 info 0x00011044 0x0000FFFF

/-- The machine check (R748). -/
def State.takeMachineCheck (s : State) (c : McCause) : State :=
  let info := (if c.icParity then 0x00200000 else 0) ||| (if c.dcParity then 0x00100000 else 0)
    ||| (if c.mcp then 0x00080000 else 0) ||| (if c.tea then 0x00040000 else 0)
    ||| (if c.dataParity then 0x00020000 else 0) ||| (if c.addrParity then 0x00010000 else 0)
  let ri := if c = { McCause.none with mcp := true } then s.msr &&& 0x00000002 else 0
  let d := s.drawWord
  d.2.enter 0x00200 d.1 (info ||| ri) 0x00010044 0x0000FFFD

/-- The DSI (R753): DSISR and DAR, then the entry with SRR0 = CIA. -/
def State.takeDsi (s : State) (dsisr dar : Word) : State :=
  { s with exc := { s.exc with dsisr := dsisr, dar := dar } }.takeException 0x00300 s.pc 0

/-- The ISI (R755): SRR0 is the address whose fetch failed. -/
def State.takeIsi (s : State) (info : Word) : State := s.takeException 0x00400 s.pc info

/-- Which bits of DSISR an alignment exception leaves undefined (R761). -/
inductive AlignForm where
  /-- Update forms, `lmw`, `lswi`, `lswx`: none. -/
  | whole
  /-- The others: the rA field, bits 27:31. -/
  | noBase
  /-- `dcbz`: bits 22:26 and 27:31. -/
  | noFields
deriving DecidableEq, Repr

/-- DSISR after an alignment exception of the instruction `w` (R761); `free` gives the undefined bits. -/
def alignDsisr (w : Word) (f : AlignForm) (free : Word) : Word :=
  let x : Word := if w.extractLsb' 26 6 = 31#6 then
      (w.extractLsb' 1 2).setWidth 32 <<< 15 ||| (w.extractLsb' 6 1).setWidth 32 <<< 14
        ||| (w.extractLsb' 7 4).setWidth 32 <<< 10
    else (w.extractLsb' 26 1).setWidth 32 <<< 14 ||| (w.extractLsb' 27 4).setWidth 32 <<< 10
  let r : Word := (w.extractLsb' 16 10).setWidth 32
  match f with
  | .whole => x ||| r
  | .noBase => x ||| (r &&& 0x3E0) ||| (free &&& 0x1F)
  | .noFields => x ||| (free &&& 0x3FF)

/-- The alignment exception (R762) of the instruction `w` at address `ea`. -/
def State.takeAlignment (s : State) (w : Word) (f : AlignForm) (ea : Word) : State :=
  let d := s.drawWord
  { d.2 with exc := { d.2.exc with dsisr := alignDsisr w f d.1, dar := ea } }.takeException 0x00600 s.pc 0

/-- The program exception (R765) with its SRR1 bit. -/
def State.takeProgram (s : State) (info : Word) : State := s.takeException 0x00700 s.pc info

/-- Illegal instruction (R766). -/
def State.takeIllegal (s : State) : State := s.takeProgram 0x00080000

/-- Privileged instruction (R766). -/
def State.takePrivileged (s : State) : State := s.takeProgram 0x00040000

/-- Trap (R767); SRR0 is CIA, the default of TRAP_SRR0 (92 D24; log entry 20). -/
def State.takeTrap (s : State) : State := s.takeProgram 0x00020000

/-- Floating-point enabled exception (R770) with SRR0 = `at`. -/
def State.takeFpEnabled (s : State) (atAddr : Word) : State := s.takeException 0x00700 atAddr 0x00100000

/-- Floating-point unavailable (R769). -/
def State.takeFpUnavailable (s : State) : State := s.takeException 0x00800 s.pc 0

/-- System call (R772): SRR0 = CIA + 4. -/
def State.takeSystemCall (s : State) : State := s.takeException 0x00C00 s.nextAddr 0

/-- Runs `k` in supervisor mode; in user mode the instruction is privileged (R650, R766). -/
def State.supervisorOnly (s : State) (k : Result) : Result := if s.msrPR then .next s.takePrivileged else k

/-- Runs `k` with MSR[FP] = 1; otherwise floating-point unavailable (R420, R769). -/
def State.needFp (s : State) (k : Result) : Result := if s.msrFP then k else .next s.takeFpUnavailable

/-- After an instruction that leaves MSR[FE0] or MSR[FE1] set while FPSCR[FEX] is: the floating-point enabled
exception with SRR0 = the next instruction (R770). -/
def State.recheckFp (s : State) : State := if s.msrFE && beBit s.fpscr 1 then s.takeFpEnabled s.pc else s

/-! ### Returning from an exception (R655) -/

/-- MSR[16:31] from SRR1[16:31] but for the reserved bits 24 and 28, MSR[0:15] kept (92 D21; log entry 22);
pc = SRR0[0:29] || 00. -/
def State.returnFromException (s : State) : State :=
  { s with msr := (s.msr &&& 0xFFFF0000) ||| (s.exc.srr1 &&& 0x0000FF77), pc := alignWord s.exc.srr0 }

end Sys2Proof.Machine
end

