-- ==== Sys2Proof/Machine/Cache.lean ====
section
/-! DEFINITION. Machine/Cache.lean: the two caches and the accesses they serve (20_memory.md R161 to R167, R190,
R193, R194; log entry 31). A cache is a list of its valid blocks, the most recently used first; a block's set is
the low eight bits of its number, PA[19:26]; a set has four blocks (R164). -/

namespace Sys2Proof.Machine

/-- HID0[16]: the instruction cache is enabled (R163). -/
def State.icacheOn (s : State) : Bool := beBit s.cfg.hid0 16

/-- HID0[17]: the data cache is enabled. -/
def State.dcacheOn (s : State) : Bool := beBit s.cfg.hid0 17

/-- HID0[18]: the instruction cache is locked. -/
def State.icacheLocked (s : State) : Bool := beBit s.cfg.hid0 18

/-- HID0[19]: the data cache is locked. -/
def State.dcacheLocked (s : State) : Bool := beBit s.cfg.hid0 19

/-- The W attribute. -/
def attrW (wimg : BitVec 4) : Bool := wimg.getMsbD 0

/-- The I attribute. -/
def attrI (wimg : BitVec 4) : Bool := wimg.getMsbD 1

/-- The M attribute. -/
def attrM (wimg : BitVec 4) : Bool := wimg.getMsbD 2

/-- The G attribute. -/
def attrG (wimg : BitVec 4) : Bool := wimg.getMsbD 3

/-- The set of a block: PA[19:26] (R164). -/
def setIndex (b : BitVec 27) : BitVec 8 := b.extractLsb' 0 8

/-- The bus WIM of an access: its storage's, with I = 1 where the cache is off or the access is a miss in a locked
one (R161, R163). -/
def busWim (wimg : BitVec 4) (inhibited : Bool) : BitVec 3 :=
  if inhibited then wimg.extractLsb' 1 3 ||| 0b010 else wimg.extractLsb' 1 3

/-- The double word an address lies in, which a burst read presents first. -/
def burstAddr (pa : Word) : Word := pa &&& 0xFFFFFFF8

/-! ### What answers at an address (R10, R197; 92 D5, log entry 4) -/

/-- What answers at a block: the first region of the memory map that holds it, else RAM. -/
def State.kindOf (s : State) (b : BitVec 27) : RegionKind :=
  match s.map.find? fun r => r.first.ule b && b.ule r.last with
  | some r => r.kind
  | none => .ram

/-- The 32 bytes of a block in memory. -/
def memoryBlock (m : List Host.Cell) (b : BitVec 27) : Vector Byte 32 :=
  ⟨((List.range 32).map fun i => Memory.read m (b.toNat * 32 + i)).toArray, by simp⟩

/-- The 32 bytes that answer a read at a block. A device's and a hole's are free; a hole answers TEA. -/
def State.readBlock (s : State) (b : BitVec 27) : Vector Byte 32 × State :=
  match s.kindOf b with
  | .ram | .rom => (memoryBlock s.mem b, s)
  | .device => s.drawBlock
  | .hole => (s.drawBlock.1, { s.drawBlock.2 with tea := true })

/-- What a write of the bytes `ws` in a block does outside the processor: `m` is memory with them written. -/
def State.writeBlock (s : State) (b : BitVec 27) (m : List Host.Cell) (ws : List (Word × Byte)) : State :=
  match s.kindOf b with
  | .ram => { s with mem := m }
  | .rom => s
  | .device => s.logBus (.deviceWrite ws)
  | .hole => { s with tea := true }

/-- Byte `i` of a block. -/
def blockByte (d : Vector Byte 32) (i : Nat) : Byte := d.toList.getD i 0

/-- The data cache's copy of a block. -/
def findD (c : List DLine) (b : BitVec 27) : Option DLine := c.find? fun l => l.block == b

/-- The cache without a block. -/
def dropD (c : List DLine) (b : BitVec 27) : List DLine := c.filter fun l => l.block != b

/-- The instruction cache's copy of a block. -/
def findI (c : List ILine) (b : BitVec 27) : Option ILine := c.find? fun l => l.block == b

/-- The instruction cache without a block. -/
def dropI (c : List ILine) (b : BitVec 27) : List ILine := c.filter fun l => l.block != b

/-- The bytes of a block with their physical addresses. -/
def blockBytes (l : DLine) : List (Word × Byte) :=
  (List.range 32).map fun i => (blockAddr l.block + BitVec.ofNat 32 i, blockByte l.data i)

/-- Writes a block back by a write-with-kill, bus WIM = 100 (R161, R167, R194). -/
def State.writeBack (s : State) (l : DLine) : State :=
  (s.writeBlock l.block (Memory.writeBytes s.mem (blockAddr l.block) l.data.toList) (blockBytes l)).logTenure
    .writeKill (blockAddr l.block) 0b100 32

/-- Makes room in a block's set: with four blocks there the least recently used leaves, and is written back
first if it is modified (R167). -/
def State.evictD (s : State) (b : BitVec 27) : State :=
  let same := s.dcache.filter fun l => setIndex l.block == setIndex b
  if same.length < 4 then s
  else match same.getLast? with
    | none => s
    | some v =>
      let s1 := if v.mesi = .modified then s.writeBack v else s
      { s1 with dcache := dropD s1.dcache v.block }

/-- Puts a block in the data cache as the most recently used one, in place of any copy of it. -/
def State.putD (s : State) (l : DLine) : State := { s with dcache := l :: dropD s.dcache l.block }

/-- The state of a block read for a load: S if another cache signals SHD, else E (R194). -/
def State.readMesi (s : State) : Mesi := if s.pins.shd then .shared else .exclusive

/-- Whether a data access is served by memory although its block may be cached: the cache is off, or the storage
is caching-inhibited (R161, R163, R178). -/
def State.bypassD (s : State) (wimg : BitVec 4) : Bool := !s.dcacheOn || attrI wimg

/-- The bytes of its block that a load at `pa` sees, and what the load does: a hit, a miss that fills the block by a
burst, or a single-beat read of `size` bytes from `addr` on (R161, R163, R194). `k` is the kind of a bus read. -/
def State.blockForLoad (s : State) (wimg : BitVec 4) (k : BusKind) (pa addr : Word) (size : Nat) :
    Vector Byte 32 × State :=
  let single : Vector Byte 32 × State :=
    let r := s.readBlock (blockOf pa)
    (r.1, r.2.logTenure k addr (busWim wimg true) size)
  if s.bypassD wimg then single
  else match findD s.dcache (blockOf pa) with
    | some l => (l.data, s.putD l)
    | none =>
      if s.dcacheLocked then single
      else
        let r := (s.evictD (blockOf pa)).readBlock (blockOf pa)
        let s1 := r.2.logTenure k (burstAddr pa) (busWim wimg false) 32
        (r.1, s1.putD ⟨blockOf pa, r.1, s1.readMesi⟩)

/-- The lowest of some addresses. -/
def lowest (pa : Word) (pas : List Word) : Word := pas.foldl (fun m a => if a.ult m then a else m) pa

/-- Reads the bytes at physical addresses that all lie in one block. -/
def State.loadPhys (s : State) (wimg : BitVec 4) (k : BusKind) (pas : List Word) : List Byte × State :=
  match pas with
  | [] => ([], s)
  | pa :: _ =>
    let r := s.blockForLoad wimg k pa (lowest pa pas) pas.length
    (pas.map fun a => blockByte r.1 (blockOffset a), r.2)

/-- Writes bytes into a block's data. -/
def patchBlock (d : Vector Byte 32) : List (Word × Byte) → Vector Byte 32
  | [] => d
  | (pa, b) :: t => patchBlock (d.setIfInBounds (blockOffset pa) b) t

/-- Writes bytes to memory. -/
def patchMemory (m : List Host.Cell) : List (Word × Byte) → List Host.Cell
  | [] => m
  | (pa, b) :: t => patchMemory (Memory.write m pa.toNat b) t

/-- Writes bytes of one block past the cache, as one single-beat write (R194). -/
def State.storeMemory (s : State) (k : BusKind) (wim : BitVec 3) (pa : Word) (ws : List (Word × Byte)) : State :=
  (s.writeBlock (blockOf pa) (patchMemory s.mem ws) ws).logTenure k (lowest pa (ws.map Prod.fst)) wim ws.length

/-- Writes bytes at physical addresses that all lie in one block (R161, R178, R194). `atomic` is for `stwcx.`. The kill
of a hit in S shows the lowest of the addresses: the spec is silent, the model's choice (log entry 48). -/
def State.storePhys (s : State) (wimg : BitVec 4) (atomic : Bool) (ws : List (Word × Byte)) : State :=
  match ws with
  | [] => s
  | (pa, _) :: _ =>
    let wk : BusKind := if atomic then .writeFlushAtomic else .writeFlush
    if s.bypassD wimg then s.storeMemory wk (busWim wimg true) pa ws
    else match findD s.dcache (blockOf pa) with
      | some l =>
        if attrW wimg then (s.storeMemory wk (busWim wimg false) pa ws).putD { l with data := patchBlock l.data ws }
        else
          let s1 := if l.mesi = .shared then s.logTenure .kill (lowest pa (ws.map Prod.fst)) (busWim wimg false) 0
            else s
          s1.putD { l with data := patchBlock l.data ws, mesi := .modified }
      | none =>
        if attrW wimg || s.dcacheLocked then s.storeMemory wk (busWim wimg s.dcacheLocked) pa ws
        else
          let r := (s.evictD (blockOf pa)).readBlock (blockOf pa)
          let s1 := r.2.logTenure (if atomic then .rwitmAtomic else .rwitm) (burstAddr pa) (busWim wimg false) 32
          s1.putD ⟨blockOf pa, patchBlock r.1 ws, .modified⟩

/-- GBL of an instruction fetch (R191): with HID0[23] = 0 not asserted; else the M attribute of the page or block, and
asserted with MSR[IR] = 0. -/
def State.fetchGlobal (s : State) (wimg : BitVec 4) : Bool := beBit s.cfg.hid0 23 && (!s.msrIR || attrM wimg)

/-- Logs the bus read of a fetch. -/
def State.logFetch (s : State) (wimg : BitVec 4) (pa : Word) (inhibited : Bool) (size : Nat) : State :=
  s.logBus (.tenure .read pa (busWim wimg inhibited) (s.fetchGlobal wimg) size)

/-- The bytes of an instruction word at a physical address that is a multiple of four, through the instruction
cache (R142, R163, R190). -/
def State.fetchPhys (s : State) (wimg : BitVec 4) (pa : Word) : List Byte × State :=
  let take (d : Vector Byte 32) : List Byte := (List.range 4).map fun i => blockByte d (blockOffset pa + i)
  let r := s.readBlock (blockOf pa)
  if !s.icacheOn || attrI wimg then (take r.1, r.2.logFetch wimg pa true 4)
  else match findI s.icache (blockOf pa) with
    | some l => (take l.data, { s with icache := l :: dropI s.icache l.block })
    | none =>
      if s.icacheLocked then (take r.1, r.2.logFetch wimg pa true 4)
      else
        let same := s.icache.filter fun l => setIndex l.block == setIndex (blockOf pa)
        let kept := if same.length < 4 then s.icache else match same.getLast? with
          | none => s.icache
          | some v => dropI s.icache v.block
        (take r.1, { r.2 with icache := ⟨blockOf pa, r.1⟩ :: kept }.logFetch wimg (burstAddr pa) false 32)

/-- Invalidates a block of the instruction cache, if that cache is enabled (R163, R193, R680). -/
def State.invalidateI (s : State) (b : BitVec 27) : State :=
  if s.icacheOn then { s with icache := dropI s.icache b } else s

/-- `icbi` on a block: the operation on the bus is unconditional (R193, R194, R686). It shows the address as
`State.logBlockOp` does (log entry 48). -/
def State.icbiBlock (s : State) (wimg : BitVec 4) (pa : Word) : State :=
  (s.invalidateI (blockOf pa)).logTenure .icbi pa (busWim wimg false) 0

/-- An address-only operation of a data cache instruction or of `lwarx` (R194). A data cache instruction shows the
address of its operand as it is translated, its low five bits with it and, as it names a block and no bytes, unmodified
in little-endian mode: the spec is silent, the model's choice (log entry 48). `lwarx` hands over the big-endian address
of its word (R136). -/
def State.logBlockOp (s : State) (k : BusKind) (wimg : BitVec 4) (pa : Word) : State :=
  s.logTenure k pa (busWim wimg (!s.dcacheOn)) 0

/-- `dcbz` on a block: all 32 bytes zero, modified, without reading memory (R193, R194). -/
def State.zeroBlock (s : State) (wimg : BitVec 4) (pa : Word) : State :=
  let z : DLine := ⟨blockOf pa, Vector.replicate 32 0, .modified⟩
  match findD s.dcache (blockOf pa) with
  | some l => (if l.mesi = .shared then s.logBlockOp .kill wimg pa else s).putD z
  | none => ((s.evictD (blockOf pa)).logBlockOp .kill wimg pa).putD z

/-- `dcbst` on a block: a modified block is written to memory and marked E (R193, R194). With the cache off it
is neither accessed nor updated (R163). A block that is written back becomes the most recently used one, an E or S block
stays where it is in the order: the spec is silent, the model's choice (log entry 31). -/
def State.storeBlock (s : State) (wimg : BitVec 4) (pa : Word) : State :=
  match if s.dcacheOn then findD s.dcache (blockOf pa) else none with
  | some l =>
    if l.mesi = .modified then (s.writeBack l).putD { l with mesi := .exclusive } else s.logBlockOp .clean wimg pa
  | none => s.logBlockOp .clean wimg pa

/-- `dcbf` on a block: written to memory if modified, and invalid (R193, R194). -/
def State.flushBlock (s : State) (wimg : BitVec 4) (pa : Word) : State :=
  match if s.dcacheOn then findD s.dcache (blockOf pa) else none with
  | some l =>
    let s1 := if l.mesi = .modified then s.writeBack l else s.logBlockOp .flush wimg pa
    { s1 with dcache := dropD s1.dcache l.block }
  | none => s.logBlockOp .flush wimg pa

/-- `dcbi` on a block: invalid, modified data discarded (R193, R194). -/
def State.discardBlock (s : State) (wimg : BitVec 4) (pa : Word) : State :=
  let s1 := s.logBlockOp .kill wimg pa
  if s1.dcacheOn then { s1 with dcache := dropD s1.dcache (blockOf pa) } else s1

/-- `dcbt` and `dcbtst` do something in storage with these attributes: it is cacheable, the cache is on and not locked
(R193, R681). -/
def State.touches (s : State) (wimg : BitVec 4) : Bool := !s.bypassD wimg && !s.dcacheLocked

/-- `dcbt` and `dcbtst` on a block they touch: an absent one is loaded, one that is there becomes the most recently used
(R193, R194, R681). -/
def State.touchBlock (s : State) (wimg : BitVec 4) (pa : Word) : State := (s.blockForLoad wimg .read pa pa 0).2

/-- The byte at a physical address as a cacheable load sees it: the data cache's copy if the cache is enabled
and holds the block, else memory's (R161, R170). -/
def State.dataByte (s : State) (pa : Word) : Byte :=
  match if s.dcacheOn then findD s.dcache (blockOf pa) else none with
  | some l => blockByte l.data (blockOffset pa)
  | none => Memory.read s.mem pa.toNat

end Sys2Proof.Machine
end

