-- ==== Sys2Proof/Machine/Mmu.lean ====
section
/-! DEFINITION. Machine/Mmu.lean: address translation (21_mmu.md R200 to R258): BATs, segments, TLBs, the hashed
page table with its referenced and changed bits, protection, and the checks made on a translated access. -/

namespace Sys2Proof.Machine

/-- What an access is for (R201, R231). -/
inductive Use where
  | fetch
  | load
  | store
  | lwarx
  | stwcx
  | eciwx
  | ecowx
  | dcbz
  | fpLoad
  | fpStore
  /-- `dcbst`, `dcbf`, `icbi`: checked as loads. -/
  | cacheLoad
  /-- `dcbi`: checked as a store. -/
  | cacheStore
deriving DecidableEq, Repr

/-- The access counts as a store for protection, the changed bit and DSISR[6] (R231, R751). -/
def Use.isStore : Use → Bool
  | .store | .stwcx | .ecowx | .dcbz | .fpStore | .cacheStore => true
  | .fetch | .load | .lwarx | .eciwx | .fpLoad | .cacheLoad => false

/-- The access is compared with the DABR (R791, 92 D32; log entry 45). -/
def Use.watched : Use → Bool
  | .load | .store | .lwarx | .stwcx | .dcbz | .fpLoad | .fpStore => true
  | .fetch | .eciwx | .ecowx | .cacheLoad | .cacheStore => false

/-- Why a translation does not deliver an address (R238). -/
inductive XFault where
  /-- No BAT, no PTE. -/
  | pageFault
  /-- Block or page protection. -/
  | protection
  /-- A fetch from a no-execute segment, a direct-store segment or guarded storage. -/
  | noExecute
  /-- `lwarx` or `stwcx.` with W = 1 (R212 c). -/
  | writeThrough
  /-- The data address breakpoint (R791). -/
  | breakpoint
  /-- `dcbz` to storage it cannot be done in (R150 f). -/
  | alignment
  /-- The spec gives no result. -/
  | refused (r : Refusal)
deriving DecidableEq, Repr

/-- What a translation answers. -/
inductive Xlate where
  /-- A physical address and its WIMG attributes. -/
  | mapped (pa : Word) (wimg : BitVec 4)
  /-- A direct-store access with its segment register (R221). -/
  | directStore (sr : Word)
  | fail (f : XFault)
deriving DecidableEq, Repr

/-! ### Block address translation (R205 to R212) -/

/-- The BL mask, bits 19:29 of the upper word. -/
def Bat.bl (b : Bat) : BitVec 11 := b.upper.extractLsb' 2 11

/-- The pair is valid in the privilege level `pr` (R208). -/
def Bat.validFor (b : Bat) (pr : Bool) : Bool := if pr then beBit b.upper 31 else beBit b.upper 30

/-- The pair matches an effective address (R208). -/
def Bat.hits (b : Bat) (pr : Bool) (ea : Word) : Bool :=
  b.validFor pr && b.upper.extractLsb' 28 4 == ea.extractLsb' 28 4
    && (ea.extractLsb' 17 11 &&& ~~~b.bl) == b.upper.extractLsb' 17 11

/-- The block lengths of R207: a right-justified run of ones. -/
def Bat.lengthLegal (b : Bat) : Bool := b.bl &&& (b.bl + 1) == 0

/-- A form outside R207: a BL that is no mask, or a BEPI or BRPN bit where BL has a one. -/
def Bat.illegal (b : Bat) : Bool :=
  !b.lengthLegal || (b.upper.extractLsb' 17 11 &&& b.bl) != 0 || (b.lower.extractLsb' 17 11 &&& b.bl) != 0

/-- The physical address of a hit (R209). -/
def Bat.address (b : Bat) (ea : Word) : Word :=
  b.lower.extractLsb' 28 4 ++ (b.lower.extractLsb' 17 11 ||| (ea.extractLsb' 17 11 &&& b.bl)) ++ ea.extractLsb' 0 17

/-- The attributes of a hit, BATnL[25:28]. -/
def Bat.wimg (b : Bat) : BitVec 4 := b.lower.extractLsb' 3 4

/-- Block protection (R210). -/
def blockAllows (pp : BitVec 2) (store : Bool) : Bool := if store then pp == 2 else pp != 0

/-- The pairs of an array that match. -/
def batHits (a : Vector Bat 4) (pr : Bool) (ea : Word) : List Bat := a.toList.filter fun b => b.hits pr ea

/-- A valid pair of the array has an illegal form and lies in the address's 256-Mbyte region (R207). -/
def batIllegal (a : Vector Bat 4) (pr : Bool) (ea : Word) : Bool :=
  a.toList.any fun b => b.validFor pr && b.illegal && b.upper.extractLsb' 28 4 == ea.extractLsb' 28 4

/-- The array a use is translated with (R203). -/
def State.batArray (s : State) (u : Use) : Vector Bat 4 := if u = .fetch then s.mmu.ibat else s.mmu.dbat

/-! ### Checks on a translated access -/

/-- The checks on W, I and the data cache that belong to single instructions (R212, R237 step 5, R150 f). -/
def State.attrFault (s : State) (u : Use) (wimg : BitVec 4) : Option XFault :=
  match u with
  | .lwarx | .stwcx => if attrW wimg then some .writeThrough else none
  | .dcbz => if attrW wimg || attrI wimg || !s.dcacheOn || s.dcacheLocked then some .alignment else none
  | .fetch | .load | .store | .eciwx | .ecowx | .fpLoad | .fpStore | .cacheLoad | .cacheStore => none

/-- The data address breakpoint compare (R791). -/
def State.dabrMatch (s : State) (u : Use) (ea : Word) : Bool :=
  u.watched && s.cfg.dabr.extractLsb' 3 29 == ea.extractLsb' 3 29 && beBit s.cfg.dabr 29 == s.msrDR
    && (if u.isStore then beBit s.cfg.dabr 30 else beBit s.cfg.dabr 31)

/-- The checks after protection: first the attributes, then the breakpoint (R735 steps 6 to 8). -/
def State.lateFault (s : State) (u : Use) (ea : Word) (wimg : BitVec 4) : Option XFault :=
  match s.attrFault u wimg with
  | some f => some f
  | none => if s.dabrMatch u ea then some .breakpoint else none

/-! ### Page address translation (R220 to R232) -/

/-- Page protection (R229). -/
def pageAllows (key : Bool) (pp : BitVec 2) (store : Bool) : Bool :=
  if store then pp == 2 || (!key && pp != 3) else !(key && pp == 0)

/-- The key: Ks in supervisor mode, Kp in user mode (R229). -/
def State.segmentKey (s : State) (sr : Word) : Bool := if s.msrPR then beBit sr 2 else beBit sr 1

/-- VSID of a segment register (R220). -/
def srVsid (sr : Word) : BitVec 24 := sr.extractLsb' 0 24

/-- The page index EA[4:19]. -/
def pageIndex (ea : Word) : BitVec 16 := ea.extractLsb' 12 16

/-- The primary hash (R227). -/
def hashPrimary (vsid : BitVec 24) (ea : Word) : BitVec 19 := vsid.extractLsb' 0 19 ^^^ (pageIndex ea).setWidth 19

/-- The physical address of a PTE group (R227). -/
def ptegAddr (sdr1 : Word) (h : BitVec 19) : Word :=
  sdr1.extractLsb' 25 7 ++ (sdr1.extractLsb' 16 9 ||| (sdr1.extractLsb' 0 9 &&& h.extractLsb' 10 9))
    ++ h.extractLsb' 0 10 ++ 0#6

/-- A PTE that the table search found: its physical address and its two words (R226). -/
structure PteHit where
  addr : Word
  word1 : Word
deriving DecidableEq, Repr

/-- The first word of a matching PTE: V, VSID, H, API (R226, R228). -/
def pteTag (vsid : BitVec 24) (h : Bool) (ea : Word) : Word := 1#1 ++ vsid ++ bit1 h ++ ea.extractLsb' 22 6

/-- The consecutive physical addresses from `pa` on. -/
def span (pa : Word) (n : Nat) : List Word := (List.range n).map fun i => pa + BitVec.ofNat 32 i

/-- Reads a big-endian word of the page table through the data cache, WIM = 001 (R228; 92 D11, log entry 33). -/
def State.readTable (s : State) (pa : Word) : Word × State :=
  let r := s.loadPhys 0b0010 .read (span pa 4)
  (BitVec.ofNat 32 (natOfBytes r.1), r.2)

/-- Looks through `n` PTEs from `pa` on for the first whose first word is `tag` (R228). The first word of each is read, the
second only of the one that matches. Where the data cache is off, or locked and misses, each word is one single-beat
read of four bytes: R228 gives neither size nor order of such reads, the model's choice (log entry 33). -/
def searchGroup (tag : Word) : Nat → Word → State → Option PteHit × State
  | 0, _, s => (none, s)
  | n + 1, pa, s =>
    let r0 := s.readTable pa
    if r0.1 = tag then
      let r1 := r0.2.readTable (pa + 4)
      (some ⟨pa, r1.1⟩, r1.2)
    else searchGroup tag n (pa + 8) r0.2

/-- The table search of R228: the primary group, then the secondary. -/
def State.tableSearch (s : State) (vsid : BitVec 24) (ea : Word) : Option PteHit × State :=
  let h := hashPrimary vsid ea
  let r := searchGroup (pteTag vsid false ea) 8 (ptegAddr s.mmu.sdr1 h) s
  match r.1 with
  | some p => (some p, r.2)
  | none => searchGroup (pteTag vsid true ea) 8 (ptegAddr s.mmu.sdr1 (~~~h)) r.2

/-- Writes one byte of a PTE: a single-beat read and a byte write on the bus, WIM = 001; a copy of the block in the
data cache gets the byte too and keeps its state (R233; log entry 33). That the read moves one byte, at the address of
the byte that is written, is the model's choice (log entry 33). -/
def State.writePteByte (s : State) (pa : Word) (v : Byte) : State :=
  let s1 := (s.logTenure .read pa 0b001 1).storeMemory .writeFlush 0b001 pa [(pa, v)]
  match if s.dcacheOn then findD s.dcache (blockOf pa) else none with
  | some l => s1.putD { l with data := patchBlock l.data [(pa, v)] }
  | none => s1

/-- Sets R in the PTE in memory if it is 0: a store of byte 6 with the other bits as the search read them (R231,
R233). -/
def State.setReferenced (s : State) (p : PteHit) : State :=
  if beBit p.word1 23 then s else s.writePteByte (p.addr + 6) (p.word1.extractLsb' 8 8 ||| 0x01)

/-- Sets C in the PTE in memory: a store of byte 7 (R231, R233). -/
def State.setChanged (s : State) (p : PteHit) : State :=
  s.writePteByte (p.addr + 7) (p.word1.extractLsb' 0 8 ||| 0x80)

/-- The TLB set of an address: EA[14:19] (R240). -/
def tlbIndex (ea : Word) : BitVec 6 := ea.extractLsb' 12 6

/-- The TLB tag of an address: EA[4:13] (R240). -/
def tlbTag (ea : Word) : BitVec 10 := ea.extractLsb' 18 10

/-- The entry an address hits (R241). -/
def tlbFind (t : List TlbEntry) (vsid : BitVec 24) (ea : Word) : Option TlbEntry :=
  t.find? fun e => e.index == tlbIndex ea && e.tag == tlbTag ea && e.vsid == vsid

/-- The TLB of a use. -/
def State.tlb (s : State) (u : Use) : List TlbEntry := if u = .fetch then s.itlb else s.dtlb

/-- Replaces the TLB of a use. -/
def State.setTlb (s : State) (u : Use) (t : List TlbEntry) : State :=
  if u = .fetch then { s with itlb := t } else { s with dtlb := t }

/-- An entry without its `changed` flag, to tell copies of one entry from others. -/
def sameEntry (a b : TlbEntry) : Bool := a.index == b.index && a.tag == b.tag && a.vsid == b.vsid

/-- Uses an entry: it becomes the most recently used, in place of its copy (R242). -/
def tlbUse (t : List TlbEntry) (e : TlbEntry) : List TlbEntry := e :: t.filter fun x => !sameEntry x e

/-- The entries of a set. -/
def tlbSet (t : List TlbEntry) (i : BitVec 6) : List TlbEntry := t.filter fun x => x.index == i

/-- Loads an entry in place of `v`. -/
def tlbReplace (t : List TlbEntry) (v : Option TlbEntry) (e : TlbEntry) : List TlbEntry :=
  tlbUse (match v with
    | none => t
    | some v => t.filter fun x => !sameEntry x v) e

/-- Loads an entry in the TLB of a use: in an invalid way if the set has one (R242); with two valid entries in the set
either leaves, by a free bit (92 D12; log entry 32). -/
def State.loadTlb (s : State) (u : Use) (e : TlbEntry) : State :=
  let same := tlbSet (s.tlb u) e.index
  if same.length < 2 then s.setTlb u (tlbReplace (s.tlb u) none e)
  else
    let d := s.drawBit
    d.2.setTlb u (tlbReplace (s.tlb u) (if d.1 then same.getLast? else same.head?) e)

/-- The entry made from a PTE (R240). -/
def entryOf (vsid : BitVec 24) (ea : Word) (p : PteHit) : TlbEntry :=
  ⟨tlbIndex ea, tlbTag ea, vsid, p.word1.extractLsb' 12 20, beBit p.word1 24, p.word1.extractLsb' 3 4,
    p.word1.extractLsb' 0 2⟩

/-- The entry for an address: the TLB's, or after a table search the one loaded, with the PTE where the search
found it (R231, R241, R242). `none` is a page fault. -/
def State.findEntry (s : State) (u : Use) (vsid : BitVec 24) (ea : Word) :
    Option (TlbEntry × Option PteHit) × State :=
  match tlbFind (s.tlb u) vsid ea with
  | some e => (some (e, none), s.setTlb u (tlbUse (s.tlb u) e))
  | none =>
    let r := s.tableSearch vsid ea
    match r.1 with
    | none => (none, r.2)
    | some p =>
      let s1 := r.2.setReferenced p
      let e := entryOf vsid ea p
      (some (e, some p), s1.loadTlb u e)

/-- A permitted store to a page whose entry has C = 0: C is set in the entry and in the PTE, which a hit entry's
store searches again (R231, R237 step 6). `false` is a page fault of that search. -/
def State.markChanged (s : State) (u : Use) (ea : Word) (e : TlbEntry) (p : Option PteHit) : Bool × State :=
  let set (s : State) (p : PteHit) : State :=
    let s1 := s.setChanged p
    s1.setTlb u (tlbUse (s1.tlb u) { e with changed := true })
  match p with
  | some p => (true, set s p)
  | none =>
    let r := s.tableSearch e.vsid ea
    match r.1 with
    | some p => (true, set (r.2.setReferenced p) p)
    | none => (false, r.2)

/-- Translation through a page (R237): entry, protection, the later checks, the changed bit. -/
def State.translatePage (s : State) (u : Use) (sr ea : Word) : Xlate × State :=
  let r := s.findEntry u (srVsid sr) ea
  match r.1 with
  | none => (.fail .pageFault, r.2)
  | some (e, p) =>
    let pa : Word := e.rpn ++ ea.extractLsb' 0 12
    if !pageAllows (s.segmentKey sr) e.pp u.isStore then (.fail .protection, r.2)
    else if u = .fetch ∧ attrG e.wimg = true then (.fail .noExecute, r.2)
    else match s.lateFault u ea e.wimg with
      | some f => (.fail f, r.2)
      | none =>
        if u.isStore && !e.changed then
          let c := r.2.markChanged u ea e p
          (if c.1 then .mapped pa e.wimg else .fail .pageFault, c.2)
        else (.mapped pa e.wimg, r.2)

/-- Translation with no page involved: real mode and blocks end here too (R203 steps 3 and 4). -/
def State.translateSegment (s : State) (u : Use) (ea : Word) : Xlate × State :=
  let sr := s.readSr (ea.extractLsb' 28 4)
  if beBit sr 0 then (if u = .fetch then .fail .noExecute else .directStore sr, s)
  else if u = .fetch ∧ beBit sr 3 = true then (.fail .noExecute, s)
  else s.translatePage u sr ea

/-- A translated address, after the later checks (R237 steps 5 and 7), where nothing is recorded. -/
def State.deliver (s : State) (u : Use) (ea pa : Word) (wimg : BitVec 4) : Xlate :=
  match s.lateFault u ea wimg with
  | some f => .fail f
  | none => .mapped pa wimg

/-- The translation is on for a use: MSR[IR] or MSR[DR] (R202). -/
def State.translationOn (s : State) (u : Use) : Bool := if u = .fetch then s.msrIR else s.msrDR

/-- The attributes in real addressing mode (R202). -/
def realWimg (u : Use) : BitVec 4 := if u = .fetch then 0b0001 else 0b0011

/-- `translate(EA, kind)` (R258). -/
def State.translate (s : State) (u : Use) (ea : Word) : Xlate × State :=
  let hits := batHits (s.batArray u) s.msrPR ea
  if 1 < hits.length then (.fail (.refused .overlappingBats), s)
  else if !s.translationOn u then (s.deliver u ea ea (realWimg u), s)
  else if batIllegal (s.batArray u) s.msrPR ea then (.fail (.refused .illegalBatForm), s)
  else match hits with
    | b :: _ =>
      if !blockAllows (b.lower.extractLsb' 0 2) u.isStore then (.fail .protection, s)
      else if u = .fetch ∧ attrG b.wimg = true then (.fail .noExecute, s)
      else (s.deliver u ea (b.address ea) b.wimg, s)
    | [] => s.translateSegment u ea

/-- The translation of `dcbt` and `dcbtst`: real mode, BAT or TLB hits only (R236, R681). The state is the one with the
entry's use recorded, for a touch that succeeds. -/
def State.translateTouch (s : State) (ea : Word) : Option (Word × BitVec 4 × State) :=
  if !s.msrDR then some (ea, realWimg .load, s)
  else match batHits s.mmu.dbat s.msrPR ea with
    | b :: _ => if blockAllows (b.lower.extractLsb' 0 2) false then some (b.address ea, b.wimg, s) else none
    | [] =>
      let sr := s.readSr (ea.extractLsb' 28 4)
      if beBit sr 0 then none
      else match tlbFind s.dtlb (srVsid sr) ea with
        | none => none
        | some e =>
          if pageAllows (s.segmentKey sr) e.pp false then
            some (e.rpn ++ ea.extractLsb' 0 12, e.wimg, s.setTlb .load (tlbUse s.dtlb e))
          else none

/-- Invalidates the entries of one set in both TLBs (R245, R248). -/
def State.invalidateTlb (s : State) (i : BitVec 6) : State :=
  { s with itlb := s.itlb.filter (fun e => e.index != i), dtlb := s.dtlb.filter (fun e => e.index != i) }

/-- The DSISR bits of a failed data access (R751). -/
def XFault.dsisr (f : XFault) (u : Use) : Word :=
  (match f with
    | .pageFault => 0x40000000
    | .protection => 0x08000000
    | .writeThrough => 0x04000000
    | .breakpoint => 0x00400000
    | .noExecute => 0
    | .alignment => 0
    | .refused _ => 0) ||| (if u.isStore then 0x02000000 else 0)

/-- The SRR1 bits of a failed fetch (R755). -/
def XFault.isiInfo : XFault → Word
  | .pageFault => 0x40000000
  | .protection => 0x08000000
  | .noExecute | .writeThrough | .breakpoint | .alignment | .refused _ => 0x10000000

end Sys2Proof.Machine
end

