-- ==== Sys2Proof/Machine/Boundary.lean ====
section
/-! DEFINITION. Machine/Boundary.lean: what happens between two instructions (60_exceptions.md R780 to R789, R800
to R806; 61_platform.md R831 to R847; 20_memory.md R195): one input of the environment, the counters, the
asynchronous exceptions. -/

namespace Sys2Proof.Machine

/-! ### Snoops (R177, R183, R195) -/

/-- The block is written by the operation's master. -/
def BusKind.writes : BusKind → Bool
  | .writeFlush | .writeFlushAtomic | .writeKill => true
  | .read | .readAtomic | .rwitm | .rwitmAtomic | .rwnitc | .kill | .flush | .clean | .lwarxSet | .icbi
  | .tlbInvalidate | .sync | .tlbSync | .eieio => false

/-- A hit on the reserved block releases the reservation (R183). -/
def BusKind.releases : BusKind → Bool
  | .rwitm | .rwitmAtomic | .kill | .writeFlush | .writeFlushAtomic | .writeKill => true
  | .read | .readAtomic | .rwnitc | .flush | .clean | .lwarxSet | .icbi | .tlbInvalidate | .sync | .tlbSync
  | .eieio => false

/-- The operation leaves no valid copy of the block in a snooping cache (R195). -/
def BusKind.invalidates : BusKind → Bool
  | .rwitm | .rwitmAtomic | .kill | .flush | .writeFlush | .writeFlushAtomic | .writeKill => true
  | .read | .readAtomic | .rwnitc | .clean | .lwarxSet | .icbi | .tlbInvalidate | .sync | .tlbSync | .eieio => false

/-- A modified block is pushed to memory first (R195). For kill the sources differ, and `State.snoopPushes` draws it. -/
def BusKind.pushes : BusKind → Bool
  | .read | .readAtomic | .rwitm | .rwitmAtomic | .rwnitc | .flush | .clean | .writeFlush | .writeFlushAtomic => true
  | .kill | .writeKill | .lwarxSet | .icbi | .tlbInvalidate | .sync | .tlbSync | .eieio => false

/-- The state of a block that stays valid after a snoop (R195). -/
def BusKind.mesiAfter (k : BusKind) (m : Mesi) : Mesi :=
  match k with
  | .read | .readAtomic => .shared
  | .rwnitc | .clean => if m = .modified then .exclusive else m
  | .rwitm | .rwitmAtomic | .kill | .flush | .writeFlush | .writeFlushAtomic | .writeKill | .lwarxSet | .icbi
  | .tlbInvalidate | .sync | .tlbSync | .eieio => m

/-- Whether a hit modified block is pushed; for kill a free bit says it (90_conflicts.md C41, log entry 31). -/
def State.snoopPushes (s : State) (k : BusKind) : Bool × State := if k = .kill then s.drawBit else (k.pushes, s)

/-- The data cache's answer to a qualified snoop of a block (R195). -/
def State.snoopData (s : State) (k : BusKind) (b : BitVec 27) : State :=
  match if s.dcacheOn then findD s.dcache b else none with
  | none => s
  | some l =>
    let p := s.snoopPushes k
    let s1 := if l.mesi = .modified then (if p.1 then p.2.writeBack l else p.2) else s
    if k.invalidates then { s1 with dcache := dropD s1.dcache b }
    else { s1 with dcache := s1.dcache.map fun x => if x.block = b then { x with mesi := k.mesiAfter x.mesi } else x }

/-- The whole answer to a snoop: reservation, data cache, instruction cache (HID0[23], R190), `icbi` and TLB
invalidation, which need no GBL (R177, R248). -/
def State.snoopOne (s : State) (x : Snoop) : State :=
  let b := blockOf x.addr
  let s1 := if x.gbl && x.kind.releases && s.resvAddr == b then { s with resv := false } else s
  let s2 := if x.gbl then s1.snoopData x.kind b else s1
  let s3 := if x.kind = .icbi ∨ (x.gbl = true ∧ x.kind.invalidates = true ∧ beBit s2.cfg.hid0 23 = true) then
    s2.invalidateI b else s2
  if x.kind = .tlbInvalidate then s3.invalidateTlb (tlbIndex x.addr) else s3

/-- The bytes another master's operation writes, whatever the memory map says of their addresses: the environment may
change any byte (92 D6), and D5 on ROM speaks of the processor's writes. The model's choice (log entry 4). -/
def State.masterWrite (s : State) (x : Snoop) : State :=
  if x.kind.writes then { s with mem := Memory.writeBytes s.mem x.addr x.data } else s

/-- Another master's operation: the snoop, unless the processor naps or is stopped (R863, R747), then the bytes
it writes. -/
def State.otherMaster (s : State) (x : Snoop) : State :=
  (if s.latches.checkstop || (s.latches.halted && !s.pins.run) then s else s.snoopOne x).masterWrite x

/-! ### Time (R800, R804; log entry 10) -/

/-- The weight of the time base bit that RTCSELECT names, as an exponent (R838). -/
def rtcExponent (mmcr0 : Word) : Nat :=
  match (mmcr0.extractLsb' 23 2).toNat with
  | 0 => 0
  | 1 => 8
  | 2 => 12
  | _ => 16

/-- How often the bit of weight `2^e` goes from 0 to 1 while the time base counts `k` ticks from `tb`. -/
def rtcTransitions (tb : Dword) (k e : Nat) : Nat :=
  (tb.toNat + k + 2 ^ e) / 2 ^ (e + 1) - (tb.toNat + 2 ^ e) / 2 ^ (e + 1)

/-- The ticks the time base counts: those with TBEN asserted (R800). -/
def State.counted (s : State) (k : Nat) : Nat := if s.pins.tben then k else 0

/-- `k` ticks: the time base counts if TBEN is asserted, the decrementer always; the decrementer condition is the
step from 0 to 0xFFFFFFFF (R800, R804). -/
def State.tick (s : State) (k : Nat) : State :=
  { s with
    tb := s.tb + BitVec.ofNat 64 (s.counted k)
    dec := s.dec - BitVec.ofNat 32 k
    latches := { s.latches with decPending := s.latches.decPending || decide (s.dec.toNat < k) } }

/-! ### The performance monitor (R831 to R847; log entry 36) -/

/-- The counters may change (R831). -/
def State.pmCounting (s : State) : Bool :=
  let m := s.pm.mmcr0
  !(beBit m 0 || (beBit m 1 && !s.msrPR) || (beBit m 2 && s.msrPR) || (beBit m 3 && s.msrPM) || (beBit m 4 && !s.msrPM))
    && !s.pm.frozen && !s.latches.halted

/-- PMC2 to PMC4 are held until PMC1 has been negative or an interrupt has been signalled (R832). -/
def State.pmHeld (s : State) : Bool := beBit s.pm.mmcr0 18 && !s.pm.released

/-- A negative PMC1 ends the hold: PMC2 to PMC4 count from then on, until MMCR0 is written (R832; log entry 36). -/
def State.pmRelease (s : State) : State :=
  let ends := beBit s.pm.mmcr0 18 && beBit s.pm.pmc1 0 && !s.latches.halted
  { s with pm := { s.pm with released := s.pm.released || ends } }

/-- What a counter adds: nothing for event 0 and reserved events, the transitions for event 3, else what the
environment says (R833, R838, R839). -/
def pmIncrement (event last : Nat) (transitions inc : Nat) : Word :=
  BitVec.ofNat 32 (if event = 0 ∨ last < event then 0 else if event = 3 then transitions else inc)

/-- The counters after one boundary. -/
def State.pmCount (s : State) (x : Input) (transitions : Nat) : State :=
  let m := s.pm.mmcr0
  let e3 := (s.pm.mmcr1.extractLsb' 27 5).toNat
  let e4 := (s.pm.mmcr1.extractLsb' 22 5).toNat
  if s.pmCounting then
    let c1 := s.pm.pmc1 + pmIncrement (m.extractLsb' 6 7).toNat 31 transitions x.inc1
    if s.pmHeld then { s with pm := { s.pm with pmc1 := c1 } }
    else
      { s with
        pm := { s.pm with
          pmc1 := c1
          pmc2 := s.pm.pmc2 + pmIncrement (m.extractLsb' 0 6).toNat 31 transitions x.inc2
          pmc3 := s.pm.pmc3 + pmIncrement e3 30 transitions x.inc3
          pmc4 := s.pm.pmc4 + pmIncrement e4 30 transitions x.inc4 } }
  else s

/-- The interrupt signal condition (R840). -/
def State.pmCondition (s : State) (transitions : Nat) : Bool :=
  let m := s.pm.mmcr0
  (beBit m 16 && beBit s.pm.pmc1 0)
    || (beBit m 17 && (beBit s.pm.pmc2 0 || beBit s.pm.pmc3 0 || beBit s.pm.pmc4 0))
    || (beBit m 9 && decide (0 < transitions))

/-- PMC1 counts a threshold event and is negative (R843, R846). Another condition that holds at the same boundary does
not change what SIA and SDA get: the spec does not say which event counts as the trigger (log entry 36). -/
def State.pmThreshold (s : State) : Bool :=
  beBit s.pm.mmcr0 16 && beBit s.pm.pmc1 0 && [9, 10, 23, 24].contains (s.pm.mmcr0.extractLsb' 6 7).toNat

/-- Signals the performance monitor interrupt (R840, R846, R847). -/
def State.pmSignal (s : State) (x : Input) : State :=
  let d := s.drawWord
  let t := s.pmThreshold
  { d.2 with
    pm := { s.pm with
      pending := true
      mmcr0 := setBeBit s.pm.mmcr0 5 false
      sia := if t then x.sampledIa else s.lastIa
      sda := if t then x.sampledDa else d.1
      frozen := s.pm.frozen || beBit s.pm.mmcr0 6
      released := true } }

/-- The performance monitor at a boundary; it rests while the processor is halted (92 D35). -/
def State.pmBoundary (s : State) (x : Input) (transitions : Nat) : State :=
  let s1 := (s.pmRelease.pmCount x transitions).pmRelease
  if beBit s1.pm.mmcr0 5 && s1.pmCondition transitions && !s1.latches.halted then s1.pmSignal x else s1

/-! ### Machine check causes (R746, R786) -/

/-- The causes HID0 enables; TEA needs no enable. -/
def McCause.enabled (c : McCause) (hid0 : Word) : McCause :=
  ⟨c.icParity && beBit hid0 1, c.dcParity && beBit hid0 1, c.mcp && beBit hid0 0, c.tea,
    c.dataParity && beBit hid0 3, c.addrParity && beBit hid0 2⟩

/-- Two sets of causes together. -/
def McCause.union (a b : McCause) : McCause :=
  ⟨a.icParity || b.icParity, a.dcParity || b.dcParity, a.mcp || b.mcp, a.tea || b.tea,
    a.dataParity || b.dataParity, a.addrParity || b.addrParity⟩

/-! ### The boundary -/

/-- The input when the list is at its end: the pins stay, nothing happens. The sampled addresses it brings are 0, which is
what SIA and SDA get if a threshold event signals at such a boundary: R846 and R847 leave them to the environment, the
model's choice (log entry 36). -/
def Input.quiet (p : Pins) : Input := ⟨false, false, false, McCause.none, p, 0, [], 0, 0, 0, 0, 0, 0⟩

/-- The input of this boundary, and the state without it. -/
def State.takeInput (s : State) : Input × State :=
  match s.inputs with
  | [] => (Input.quiet s.pins, s)
  | x :: t => (x, { s with inputs := t })

/-- A hard reset at run time (R110, R745): what is outside the processor stays, and so do the MODEL's own counters
(log entry 40). -/
def State.hardReset (s : State) : State :=
  { State.reset with
    mem := s.mem, map := s.map, inputs := s.inputs, busLog := s.busLog, fresh := s.fresh, pins := s.pins }

/-- The input's effects: pins, other masters, time, performance monitor, latches. A TEA that an access of the last step
was answered with is among the machine check causes (R197, R746; log entry 4). -/
def State.applyInput (s : State) (x : Input) : State :=
  let s1 := x.snoops.foldl State.otherMaster { s with pins := x.pins }
  let n := rtcTransitions s1.tb (s1.counted x.ticks) (rtcExponent s1.pm.mmcr0)
  let s2 := (s1.tick x.ticks).pmBoundary x n
  let mc := s2.latches.mc.union (x.mc.enabled s2.cfg.hid0)
  { s2 with
    tea := false
    latches := { s2.latches with
      sreset := s2.latches.sreset || x.sreset
      mc := { mc with tea := mc.tea || s2.tea } } }

/-- Checkstop (R747). -/
def State.enterCheckstop (s : State) : State := { s with latches := { s.latches with checkstop := true } }

/-- The asynchronous exception of this boundary, if one is taken (R781, R789). -/
def State.asynchronous (s : State) : Option State :=
  if s.latches.sreset then
    some ({ s with latches := { s.latches with sreset := false } }.takeException 0x00100 s.pc 0)
  else if s.latches.mc ≠ McCause.none then
    (if s.msrME then
      some ({ s with latches := { s.latches with mc := McCause.none } }.takeMachineCheck s.latches.mc)
    else some s.enterCheckstop)
  else if s.msrEE then
    (if s.pins.smi then some (s.takeException 0x01400 s.pc 0)
    else if s.pins.int then some (s.takeException 0x00500 s.pc 0)
    else if s.pm.pending then
      some ({ s with pm := { s.pm with pending := false } }.takeException 0x00F00 s.pc 0)
    else if s.latches.decPending then
      some ({ s with latches := { s.latches with decPending := false } }.takeException 0x00900 s.pc 0)
    else none)
  else none

/-- The boundary step (R789): `true` says that it is the whole step. After a boundary that takes no exception a
processor with MSR[POW] = 1 is halted (R861; log entry 37). While HRESET is asserted nothing is snooped (R891). -/
def State.boundary (s : State) : State × Bool :=
  let x := s.takeInput.1
  let s0 := s.takeInput.2
  if x.hreset then ((x.snoops.foldl State.masterWrite { s0 with pins := x.pins }).hardReset, true)
  else if s0.latches.checkstop then (x.snoops.foldl State.otherMaster { s0 with pins := x.pins }, true)
  else
    let s1 := s0.applyInput x
    if x.ckstp then (s1.enterCheckstop, true)
    else match s1.asynchronous with
      | some t => (t, true)
      | none =>
        if s1.msrPOW then ({ s1 with latches := { s1.latches with halted := true } }, true) else (s1, false)

end Sys2Proof.Machine
end

