-- ==== Sys2Proof/Machine/Access.lean ====
section
/-! DEFINITION. Machine/Access.lean: data accesses (20_memory.md R140, R141, R154, R155): an operand is split at
word boundaries, each part translated on its own; direct-store operations (21_mmu.md R221, R250 to R257). -/

namespace Sys2Proof.Machine

/-- Some bytes from an effective address on. -/
structure Part where
  ea : Word
  len : Nat
deriving DecidableEq, Repr

/-- How an access ended. Loaded bytes stand in rising order of effective address; a store has none. -/
inductive Acc where
  | ok (bytes : List Byte) (s : State)
  /-- The access is complete and a direct-store unit flagged an error: a DSI follows (R256). -/
  | okError (bytes : List Byte) (dsisr dar : Word) (s : State)
  /-- A DSI, with the bytes of the parts read before it. -/
  | dsi (done : List Byte) (dsisr dar : Word) (s : State)
  | align (s : State)
  | refuse (r : Refusal)
deriving DecidableEq, Repr

/-- The offset of an address in an aligned region of `2^k` bytes. -/
def lowBits (ea : Word) (k : Nat) : Nat := (ea.extractLsb' 0 k).toNat

/-- The parts of an operand of 1 to 8 bytes: one inside an aligned word, or for an aligned double word; else the
bytes up to the next word boundary and the rest (R154, R151). -/
def splitParts (ea : Word) (n : Nat) : List Part :=
  if lowBits ea 2 + n ≤ 4 ∨ (n = 8 ∧ lowBits ea 3 = 0) then [⟨ea, n⟩]
  else [⟨ea, 4 - lowBits ea 2⟩, ⟨ea + BitVec.ofNat 32 (4 - lowBits ea 2), n - (4 - lowBits ea 2)⟩]

/-- The physical addresses of a part's bytes: in little-endian mode the low three bits of each are complemented
(R136). -/
def physSpan (le : Bool) (pa : Word) (n : Nat) : List Word :=
  if le then (span pa n).map fun a => a ^^^ 7 else span pa n

/-- The access a failed translation ends in. -/
def failAcc (f : XFault) (u : Use) (ea : Word) (done : List Byte) (s : State) : Acc :=
  match f with
  | .refused r => .refuse r
  | .alignment => .align s
  | .pageFault | .protection | .noExecute | .writeThrough | .breakpoint => .dsi done (f.dsisr u) ea s

/-- Two bits choose one of the cause bits 0, 1, 4 and 5 of DSISR. -/
def oneCause (a b : Bool) : Word :=
  if a then (if b then 0x80000000 else 0x40000000) else (if b then 0x08000000 else 0x04000000)

/-- The DSI of an access that goes from memory into a direct-store segment (R155): one cause bit, which of 0, 1, 4
and 5 is undefined (R751, 92 D27; log entry 47). -/
def mixedDsi (u : Use) (ea : Word) (done : List Byte) (s : State) : Acc :=
  .dsi done (oneCause s.drawBit.1 s.drawBit.2.drawBit.1 ||| (if u.isStore then 0x02000000 else 0)) ea
    s.drawBit.2.drawBit.2

/-! ### Memory accesses -/

/-- Loads parts one after the other, after the bytes already loaded (R140): the first part is read, with its cache fill,
its bus read and its TEA, before the second is translated. The spec does not order these: the model's choice (log entry
42). -/
def loadParts (u : Use) : List Part → List Byte → State → Acc
  | [], done, s => .ok done s
  | p :: ps, done, s =>
    match s.translate u p.ea with
    | (.mapped pa wimg, s1) =>
      let r := s1.loadPhys wimg .read (physSpan s1.msrLE pa p.len)
      loadParts u ps (done ++ r.1) r.2
    | (.directStore _, s1) => mixedDsi u p.ea done s1
    | (.fail f, s1) => failAcc f u p.ea done s1

/-- Stores a part's bytes at its physical address. -/
def State.storePart (s : State) (wimg : BitVec 4) (atomic : Bool) (pa : Word) (bs : List Byte) : State :=
  s.storePhys wimg atomic ((physSpan s.msrLE pa bs.length).zip bs)

/-- Stores one operand. Both parts of a split one are translated first; if the second fails, the first part has
been written or not (R141; log entry 11). The tests of the first part, its breakpoint compare among them, come before
the second part is translated: where the first matches the DABR and the second fails translation or protection, R735
steps 7 and 8 and R141 do not say which DSI wins, and the breakpoint is the model's choice (log entry 42). -/
def storeOperand (u : Use) (ps : List Part) (bs : List Byte) (s : State) : Acc :=
  match ps with
  | [] => .ok [] s
  | p :: rest =>
    match s.translate u p.ea with
    | (.fail f, s1) => failAcc f u p.ea [] s1
    | (.directStore _, s1) => mixedDsi u p.ea [] s1
    | (.mapped pa wimg, s1) =>
      match rest with
      | [] => .ok [] (s1.storePart wimg false pa bs)
      | q :: _ =>
        let first (s : State) : State := s.storePart wimg false pa (bs.take p.len)
        let partly (s : State) : State := if s.drawBit.1 then first s.drawBit.2 else s.drawBit.2
        match s1.translate u q.ea with
        | (.fail f, s2) => failAcc f u q.ea [] (partly s2)
        | (.directStore _, s2) => mixedDsi u q.ea [] (partly s2)
        | (.mapped qa qimg, s2) => .ok [] ((first s2).storePart qimg false qa (bs.drop p.len))

/-! ### Direct-store accesses (log entry 13) -/

/-- The segment register of a data access that no DBAT translates (R203). -/
def State.segmentOf (s : State) (ea : Word) : Option Word :=
  if s.msrDR && !batIllegal s.mmu.dbat s.msrPR ea && (batHits s.mmu.dbat s.msrPR ea).isEmpty then
    some (s.readSr (ea.extractLsb' 28 4))
  else none

/-- The segment register of a data access that is a direct-store access (R250). None is memory-forced (R168): that is
the model's choice (log entry 13). -/
def State.directSegment (s : State) (ea : Word) : Option Word := (s.segmentOf ea).filter fun sr => beBit sr 0

/-- The data access goes through a page: its segment has T = 0 (R203, R220). -/
def State.paged (s : State) (ea : Word) : Bool := (s.segmentOf ea).any fun sr => !beBit sr 0

/-- A piece of an access: what goes to memory, or what is sent to a direct-store unit with this segment register. -/
inductive Piece where
  | memory (ps : List Part)
  | direct (sr : Word) (ps : List Part)
deriving DecidableEq, Repr

/-- The pieces of one operand. Each part goes where its own address leads (R257), but for an operand split between
segments with different T bits (R155): from T = 1 into a page all of it is sent to the unit with the first part's
segment register, from a page into T = 1 it is one operand in memory, which ends in the DSI of `mixedDsi`. A part that a
DBAT translates has no segment in R155's sense and goes to memory: the model's choice (log entry 13). -/
def State.pieces (s : State) (p : Part) : List Piece :=
  match splitParts p.ea p.len with
  | [] => []
  | [a] =>
    match s.directSegment a.ea with
    | some x => [.direct x [p]]
    | none => [.memory [a]]
  | a :: b :: _ =>
    match s.directSegment a.ea, s.directSegment b.ea with
    | none, none => [.memory [a, b]]
    | some x, some y => if x = y then [.direct x [p]] else [.direct x [a], .direct y [b]]
    | some x, none => if s.paged b.ea then [.direct x [p]] else [.direct x [a], .memory [b]]
    | none, some y => if s.paged a.ea then [.memory [a, b]] else [.memory [a], .direct y [b]]

/-- Puts neighbours that go to one unit with one segment register together: they are one operation (R255). Two T = 1
segments that follow one another and whose registers hold equal values count as one: the spec is silent, the model's
choice (log entry 13). -/
def mergePieces : List Piece → List Piece
  | [] => []
  | .memory ps :: t => .memory ps :: mergePieces t
  | .direct x ps :: t =>
    match mergePieces t with
    | .direct y qs :: u => if x = y then .direct x (ps ++ qs) :: u else .direct x ps :: .direct y qs :: u
    | .memory qs :: u => .direct x ps :: .memory qs :: u
    | [] => [.direct x ps]

/-- The piece is sent to a direct-store unit. -/
def Piece.isDirect : Piece → Bool
  | .memory _ => false
  | .direct _ _ => true

/-- How many bytes some parts have together. -/
def totalLen (ps : List Part) : Nat := ps.foldl (fun n p => n + p.len) 0

/-- How many bytes a piece has. -/
def Piece.len : Piece → Nat
  | .memory ps => totalLen ps
  | .direct _ ps => totalLen ps

/-- The transfers of an operand of up to four bytes: one, or two if it straddles an 8-byte boundary (R255). For a string
at an address that is no multiple of four the operands are the bytes of one register each, cut at no word boundary (R154):
the spec is silent, the model's choice (log entry 13). -/
def directBeats (ea : Word) (n : Nat) : List Part :=
  if lowBits ea 3 + n ≤ 8 then [⟨ea, n⟩]
  else [⟨ea, 8 - lowBits ea 3⟩, ⟨ea + BitVec.ofNat 32 (8 - lowBits ea 3), n - (8 - lowBits ea 3)⟩]

/-- Logs one transfer with its effective address as it is and its bytes in rising order of effective address, also in
little-endian mode (R221, R255; log entry 13). -/
def State.logDirect (s : State) (sr : Word) (p : Part) (op count : BitVec 8) (data : List Byte) : State :=
  s.logBus (.directStore (0#2 ++ bit1 (s.segmentKey sr) ++ sr.extractLsb' 4 25 ++ s.cfg.pir.extractLsb' 0 4) op
    (sr.extractLsb' 0 4 ++ p.ea.extractLsb' 0 28) count data)

/-- The transfers of a direct-store load: the unit's data are undefined (R256). -/
def directLoads (sr : Word) : List Part → State → List Byte × State
  | [], s => ([], s)
  | p :: ps, s =>
    let d := s.drawWord
    let bytes := (bytesOfNat 4 d.1.toNat).take p.len
    let s1 := d.2.logDirect sr p (if ps.isEmpty then 0x70 else 0x50) (BitVec.ofNat 8 p.len) []
    let r := directLoads sr ps s1
    (bytes ++ r.1, r.2)

/-- The transfers of a direct-store store. -/
def directStores (sr : Word) : List Part → List Byte → State → State
  | [], _, s => s
  | p :: ps, bs, s =>
    directStores sr ps (bs.drop p.len)
      (s.logDirect sr p (if ps.isEmpty then 0x30 else 0x10) (BitVec.ofNat 8 p.len) (bs.take p.len))

/-- The outcome once the reply has come: an error bit that is undefined (R256). -/
def directReply (u : Use) (bytes : List Byte) (ea : Word) (s : State) : Acc :=
  if s.drawBit.1 then .okError bytes (0x80000000 ||| (if u.isStore then 0x02000000 else 0)) ea s.drawBit.2
  else .ok bytes s.drawBit.2

/-- A store to a unit that a breakpoint stops: the transfers before the one that matches are sent or not (R141; log
entries 11 and 13). -/
def State.directPartly (s : State) (sr : Word) (sent : List Part) (bs : List Byte) : State :=
  if s.drawBit.1 then directStores sr sent bs s.drawBit.2 else s.drawBit.2

/-- One direct-store operation over some parts; the breakpoint compares come first. `data` is what a store sends.
After an error reply DAR gets the first address of the operation: R752 and 92 D28 give that of the failing word, but
the one reply to an operation of several words or parts (R256) names none, so this is the model's choice (log
entry 13). -/
def directAccess (u : Use) (sr : Word) (ps : List Part) (data : Option (List Byte)) (s : State) : Acc :=
  let beats := ps.flatMap fun p => directBeats p.ea p.len
  let ea := (ps.head?.map Part.ea).getD 0
  let free (p : Part) : Bool := !s.dabrMatch u p.ea
  match beats.find? fun p => s.dabrMatch u p.ea with
  | some p =>
    .dsi [] (XFault.breakpoint.dsisr u) p.ea (match data with
      | none => s
      | some bs => s.directPartly sr (beats.takeWhile free) bs)
  | none =>
    match data with
    | none =>
      let s1 := s.logDirect sr ⟨ea, totalLen ps⟩ 0x40 (BitVec.ofNat 8 (totalLen ps)) []
      let r := directLoads sr beats s1
      directReply u r.1 ea r.2
    | some bs => directReply u [] ea (directStores sr beats bs s)

/-! ### The whole access of an instruction -/

/-- The state after an access that may have been flagged: the first error reply of the access is its outcome. -/
def endAcc (err : Option (Word × Word)) (done : List Byte) (s : State) : Acc :=
  match err with
  | none => .ok done s
  | some (dsisr, dar) => .okError done dsisr dar s

/-- The first of two errors. -/
def firstError (err : Option (Word × Word)) (dsisr dar : Word) : Option (Word × Word) :=
  some (err.getD (dsisr, dar))

/-- What loads one piece. -/
def Piece.load (u : Use) (s : State) : Piece → Acc
  | .memory ps => loadParts u ps [] s
  | .direct sr ps => directAccess u sr ps none s

/-- What stores one piece's bytes. -/
def Piece.store (u : Use) (bs : List Byte) (s : State) : Piece → Acc
  | .memory ps => storeOperand u ps bs s
  | .direct sr ps => directAccess u sr ps (some bs) s

/-- Loads pieces in order, after the bytes already loaded; an error reply lets the rest go on (R143, R256). -/
def loadPieces (u : Use) : List Piece → Option (Word × Word) → List Byte → State → Acc
  | [], err, done, s => endAcc err done s
  | p :: t, err, done, s =>
    match p.load u s with
    | .ok b s1 => loadPieces u t err (done ++ b) s1
    | .okError b c d s1 => loadPieces u t (firstError err c d) (done ++ b) s1
    | .dsi b c d s1 => .dsi (done ++ b) c d s1
    | .align s1 => .align s1
    | .refuse r => .refuse r

/-- Stores pieces in order, up to the first that fails (R141, R143, R550, R555). -/
def storePieces (u : Use) : List Piece → Option (Word × Word) → List Byte → State → Acc
  | [], err, _, s => endAcc err [] s
  | p :: t, err, bs, s =>
    match p.store u (bs.take p.len) s with
    | .ok _ s1 => storePieces u t err (bs.drop p.len) s1
    | .okError _ c d s1 => storePieces u t (firstError err c d) (bs.drop p.len) s1
    | .dsi b c d s1 => .dsi b c d s1
    | .align s1 => .align s1
    | .refuse r => .refuse r

/-- A store of this piece ends in an exception before it stores anything. -/
def Piece.stops (u : Use) (s : State) : Piece → Bool
  | .memory ps => ps.any fun p => match (s.translate u p.ea).1 with
    | .fail _ => true
    | .mapped _ _ | .directStore _ => false
  | .direct _ ps => ps.any fun p => (directBeats p.ea p.len).any fun b => s.dabrMatch u b.ea

/-- The pieces of one operand that a store performs. Where it stands in two places and the second part takes a DSI, a
free bit says whether the first part is stored (R141, R504; log entry 11). A part in two pieces lies in a block or in
T = 1, so that no table is searched to see it. -/
def State.storedPieces (s : State) (u : Use) (p : Part) : List Piece × State :=
  match s.pieces p with
  | [a, b] =>
    if !a.stops u s && b.stops u s then (if s.drawBit.1 then [a, b] else [b], s.drawBit.2) else ([a, b], s)
  | ps => (ps, s)

/-- The pieces of some operands that a store performs. -/
def State.storedOperands (s : State) (u : Use) : List Part → List Piece × State
  | [] => ([], s)
  | p :: t =>
    let r := s.storedPieces u p
    let q := r.2.storedOperands u t
    (r.1 ++ q.1, q.2)

/-- The tests on the pieces before the access: a floating-point access to a direct-store segment is an alignment
exception (R253), a misaligned little-endian one is refused (R138), then `k`. -/
def State.withPieces (s : State) (u : Use) (ops : List Part) (k : List Piece → Acc) : Acc :=
  let ps := mergePieces (ops.flatMap s.pieces)
  if ps.any Piece.isDirect then
    if u = .fpLoad ∨ u = .fpStore then .align s
    else if s.msrLE && ops.any fun p => decide (p.ea.toNat % p.len ≠ 0) then .refuse .littleEndianDirectStore
    else k ps
  else k ps

/-- The bytes of some operands, each of at most eight bytes, loaded in order (R140, R143). -/
def State.loadOperands (s : State) (u : Use) (ops : List Part) : Acc :=
  s.withPieces u ops fun ps => loadPieces u ps none [] s

/-- Stores bytes in some operands (R141, R143). -/
def State.storeOperands (s : State) (u : Use) (ops : List Part) (bs : List Byte) : Acc :=
  s.withPieces u ops fun _ => storePieces u (mergePieces (s.storedOperands u ops).1) none bs (s.storedOperands u ops).2

/-- `MemRead(EA, n)` (R140). -/
def State.memRead (s : State) (u : Use) (ea : Word) (n : Nat) : Acc := s.loadOperands u [⟨ea, n⟩]

/-- The bytes of a value in rising order of effective address, in the current byte order (R134, R136). -/
def State.orderBytes (s : State) (bs : List Byte) : List Byte := if s.msrLE then bs.reverse else bs

/-- `MemWrite(EA, n, v)` (R141), `v` given as its bytes, the most significant first. -/
def State.memWrite (s : State) (u : Use) (ea : Word) (bs : List Byte) : Acc :=
  s.storeOperands u [⟨ea, bs.length⟩] (s.orderBytes bs)

/-- The DSI of a direct-store error. The instruction has completed (R256), so that its address is kept for SIA (R846;
log entry 36). -/
def State.takeDirectError (s : State) (dsisr dar : Word) : State := { s with lastIa := s.pc }.takeDsi dsisr dar

/-- The instruction that made the access goes on, or takes the exception. `w` is its word and `f` says what its
alignment exception leaves undefined. `target` writes what was loaded and `rest` the other results. After a
direct-store error only the target is written (R256, R753; log entry 13); `part` is what is left done of an
interrupted access. -/
def Acc.finishWith (r : Acc) (w : Word) (f : AlignForm) (ea : Word) (target : List Byte → State → State)
    (rest : State → State) (part : List Byte → State → State) : Result :=
  match r with
  | .ok b s => .next (rest (target b s)).advance
  | .okError b c d s => .next ((target b s).takeDirectError c d)
  | .dsi b c d s => .next ((part b s).takeDsi c d)
  | .align s => .next (s.takeAlignment w f ea)
  | .refuse r => .refused r

/-- As `finishWith`, for an access that leaves nothing done when it is interrupted. -/
def Acc.finish (r : Acc) (w : Word) (f : AlignForm) (ea : Word) (target : List Byte → State → State)
    (rest : State → State) : Result :=
  r.finishWith w f ea target rest fun _ s => s

end Sys2Proof.Machine
end

