-- ==== Sys2Proof/Machine/Operands.lean ====
section
/-! DEFINITION. Machine/Operands.lean: effective addresses (42_loadstore.md R501), immediates, rotates and masks
(40_integer.md R380). -/

namespace Sys2Proof.Machine

/-- `sext_32` of a 16-bit immediate (R15). -/
def sext16 (d : BitVec 16) : Word := d.signExtend 32

/-- `zext_32` of a 16-bit immediate. -/
def zext16 (d : BitVec 16) : Word := d.setWidth 32

/-- The immediate in bits 0:15 with zeros below. -/
def highImm (d : BitVec 16) : Word := d ++ 0#16

/-- Register indirect with immediate index (R501). -/
def State.eaD (s : State) (rA : Reg) (d : BitVec 16) : Word := s.baseOrZero rA + sext16 d

/-- Register indirect with index (R501). -/
def State.eaX (s : State) (rA rB : Reg) : Word := s.baseOrZero rA + s.readGpr rB

/-- Register indirect (R501). -/
def State.eaR (s : State) (rA : Reg) : Word := s.baseOrZero rA

/-- `MASK(mb, me)` (R380). -/
def maskBits (mb me : BitVec 5) : Word :=
  let fromMb : Word := 0xFFFFFFFF#32 >>> mb.toNat
  let toMe : Word := 0xFFFFFFFF#32 <<< (31 - me.toNat)
  if mb ≤ me then fromMb &&& toMe else fromMb ||| toMe

/-- `ROTL32(x, n)` (R380). -/
def rotl32 (x : Word) (n : BitVec 5) : Word := x.rotateLeft n.toNat

/-- How many zero bits lead a word (R377). -/
def leadingZeros (w : Word) : Nat := if w = 0 then 32 else 31 - Nat.log2 w.toNat

/-- The shift amount GPR[rB][26:31] (R390). -/
def shiftAmount (w : Word) : Nat := (w.extractLsb' 0 6).toNat

/-- Shift right with copies of the sign, and the carry: a negative operand lost a one bit (R392, R393). -/
def shiftAlgebraic (w : Word) (n : Nat) : Word × Bool :=
  (w.sshiftRight n, beBit w 0 && w &&& ~~~(0xFFFFFFFF#32 <<< n) != 0)

end Sys2Proof.Machine
end

