-- ==== Sys2Proof/Machine/Flags.lean ====
section
/-! DEFINITION. Machine/Flags.lean: XER and the condition register (10_state.md R32, R34; 40_integer.md R321,
R350). -/

namespace Sys2Proof.Machine

/-- XER[SO]. -/
def State.xerSO (s : State) : Bool := beBit s.xer 0

/-- XER[CA]. -/
def State.xerCA (s : State) : Bool := beBit s.xer 2

/-- Writes XER[CA]. -/
def State.setCa (s : State) (b : Bool) : State := { s with xer := setBeBit s.xer 2 b }

/-- `XER[OV] <- ov; XER[SO] <- XER[SO] | ov` (R321). -/
def State.setOv (s : State) (ov : Bool) : State :=
  { s with xer := setBeBit (setBeBit s.xer 1 ov) 0 (s.xerSO || ov) }

/-- OE = 1 records the overflow. -/
def State.overflowIf (s : State) (oe ov : Bool) : State := if oe then s.setOv ov else s

/-- A CR field from its four bits. -/
def crBits (lt gt eq so : Bool) : BitVec 4 := bit1 lt ++ bit1 gt ++ bit1 eq ++ bit1 so

/-- `cmp0` (R321): the result as a signed number against zero, and SO. -/
def cmp0 (v : Word) (so : Bool) : BitVec 4 := crBits (v.slt 0) ((0 : Word).slt v) (v == 0) so

/-- Signed comparison (R351). -/
def cmpSigned (a b : Word) (so : Bool) : BitVec 4 := crBits (a.slt b) (b.slt a) (a == b) so

/-- Unsigned comparison (R353). -/
def cmpUnsigned (a b : Word) (so : Bool) : BitVec 4 := crBits (a.ult b) (b.ult a) (a == b) so

/-- Writes a CR field. -/
def State.setCrField (s : State) (n : Nat) (v : BitVec 4) : State := { s with cr := setField4 s.cr n v }

/-- Rc = 1 records the result in CR0, with SO as it now is (R321). -/
def State.recordIf (s : State) (rc : Bool) (v : Word) : State :=
  if rc then s.setCrField 0 (cmp0 v s.xerSO) else s

/-- The 33-bit sum of two words and a carry (R321). -/
def sum33 (a b : Word) (c : Bool) : BitVec 33 := a.setWidth 33 + b.setWidth 33 + (bit1 c).setWidth 33

/-- Signed overflow of an addition with result `r` (R321). -/
def addOverflow (a b r : Word) : Bool := beBit a 0 == beBit b 0 && beBit r 0 != beBit a 0

/-- CR1 holds FPSCR[0:3] when Rc = 1 (41_float.md R429). -/
def State.recordFpIf (s : State) (rc : Bool) : State := if rc then s.setCrField 1 (getField4 s.fpscr 0) else s

/-- Bit `i` of CR. -/
def State.crBit (s : State) (i : BitVec 5) : Bool := beBit s.cr i.toNat

end Sys2Proof.Machine
end

