-- ==== Sys2Proof/Machine/Branch.lean ====
section
/-! DEFINITION. Machine/Branch.lean: branches, condition register logic, traps (43_branch.md R610 to R642). -/

namespace Sys2Proof.Machine

/-- CTR after the decrement that BO[2] = 0 asks for (R614). -/
def State.branchCtr (s : State) (bo : BitVec 5) : Word := if bo.getMsbD 2 then s.ctr else s.ctr - 1

/-- `ctr_ok & cond_ok` (R614): the bits a BO value does not use are not looked at. -/
def State.branchTaken (s : State) (bo bi : BitVec 5) : Bool :=
  (bo.getMsbD 2 || (s.branchCtr bo != 0) != bo.getMsbD 3) && (bo.getMsbD 0 || s.crBit bi == bo.getMsbD 1)

/-- A conditional branch to `target` (R614, R616). -/
def State.branchTo (s : State) (bo bi : BitVec 5) (lk : Bool) (target : Word) : Result :=
  .next { s with
    ctr := s.branchCtr bo
    lr := if lk then s.nextAddr else s.lr
    pc := if s.branchTaken bo bi then target else s.nextAddr }

/-- The displacement of `b` (R613). -/
def offsetLI (li : BitVec 24) : Word := (li ++ 0#2).signExtend 32

/-- The displacement of `bc` (R613). -/
def offsetBD (bd : BitVec 14) : Word := (bd ++ 0#2).signExtend 32

/-- R620. -/
def execB (li : BitVec 24) (aa lk : Bool) (s : State) : Result :=
  .next { s with
    lr := if lk then s.nextAddr else s.lr
    pc := if aa then offsetLI li else s.pc + offsetLI li }

/-- R621. -/
def execBc (bo bi : BitVec 5) (bd : BitVec 14) (aa lk : Bool) (s : State) : Result :=
  s.branchTo bo bi lk (if aa then offsetBD bd else s.pc + offsetBD bd)

/-- R622: the target is the old LR. -/
def execBclr (bo bi : BitVec 5) (lk : Bool) (s : State) : Result :=
  s.branchTo bo bi lk (alignWord s.lr)

/-- R623: with BO[2] = 0 CTR is decremented and tested, and the target is undefined (92 D19; log entry 29). -/
def execBcctr (bo bi : BitVec 5) (lk : Bool) (s : State) : Result :=
  if bo.getMsbD 2 then s.branchTo bo bi lk (alignWord s.ctr)
  else s.drawWord.2.branchTo bo bi lk (alignWord s.drawWord.1)

/-! ### Condition register logic -/

/-- Writes one bit of CR (R630). -/
def State.putCrBit (s : State) (crbD : BitVec 5) (v : Bool) : Result :=
  .next { s with cr := setBeBit s.cr crbD.toNat v }.advance

/-- R631. -/
def execCrand (crbD crbA crbB : BitVec 5) (s : State) : Result := s.putCrBit crbD (s.crBit crbA && s.crBit crbB)

/-- R632. -/
def execCror (crbD crbA crbB : BitVec 5) (s : State) : Result := s.putCrBit crbD (s.crBit crbA || s.crBit crbB)

/-- R633. -/
def execCrxor (crbD crbA crbB : BitVec 5) (s : State) : Result := s.putCrBit crbD (s.crBit crbA != s.crBit crbB)

/-- R634. -/
def execCrnand (crbD crbA crbB : BitVec 5) (s : State) : Result := s.putCrBit crbD !(s.crBit crbA && s.crBit crbB)

/-- R635. -/
def execCrnor (crbD crbA crbB : BitVec 5) (s : State) : Result := s.putCrBit crbD !(s.crBit crbA || s.crBit crbB)

/-- R636. -/
def execCreqv (crbD crbA crbB : BitVec 5) (s : State) : Result := s.putCrBit crbD (s.crBit crbA == s.crBit crbB)

/-- R637. -/
def execCrandc (crbD crbA crbB : BitVec 5) (s : State) : Result := s.putCrBit crbD (s.crBit crbA && !s.crBit crbB)

/-- R638. -/
def execCrorc (crbD crbA crbB : BitVec 5) (s : State) : Result := s.putCrBit crbD (s.crBit crbA || !s.crBit crbB)

/-- R639. -/
def execMcrf (crfD crfS : BitVec 3) (s : State) : Result :=
  .next (s.setCrField crfD.toNat (getField4 s.cr crfS.toNat)).advance

/-! ### Traps -/

/-- The trap condition (R640): signed less, greater, equal, unsigned less, greater, for TO[0] to TO[4]. -/
def trapMet (cond : BitVec 5) (a b : Word) : Bool :=
  (cond.getMsbD 0 && a.slt b) || (cond.getMsbD 1 && b.slt a) || (cond.getMsbD 2 && a == b)
    || (cond.getMsbD 3 && a.ult b) || (cond.getMsbD 4 && b.ult a)

/-- Takes the trap if its condition is met (R640, R767). -/
def State.trapIf (s : State) (met : Bool) : Result := .next (if met then s.takeTrap else s.advance)

/-- R641. -/
def execTwi (tcond : BitVec 5) (rA : Reg) (simm : BitVec 16) (s : State) : Result :=
  s.trapIf (trapMet tcond (s.readGpr rA) (sext16 simm))

/-- R642. -/
def execTw (tcond : BitVec 5) (rA rB : Reg) (s : State) : Result :=
  s.trapIf (trapMet tcond (s.readGpr rA) (s.readGpr rB))

end Sys2Proof.Machine
end

