-- ==== Sys2Proof/Machine/FloatCore.lean ====
section
/-! DEFINITION. Machine/FloatCore.lean: floating-point formats, exact arithmetic, rounding (41_float.md R421 to
R428) and the FPSCR (10_state.md R33). An exact result is a sign, a natural number and a power of two; a quotient
or root keeps one sticky bit below at least 66 exact ones, which rounds as the exact value does. -/

namespace Sys2Proof.Machine

/-! ### Formats (R421) -/

/-- A target format: precision in bits, exponent range, the exponent adjustment of R426 step 5, and the largest
finite number in double format. -/
structure FpFormat where
  prec : Nat
  emin : Int
  emax : Int
  adjust : Int
  largest : Dword
deriving DecidableEq, Repr

/-- Double precision. -/
def fmtDouble : FpFormat := ⟨53, -1022, 1023, 1536, 0x7FEFFFFFFFFFFFFF⟩

/-- Single precision. -/
def fmtSingle : FpFormat := ⟨24, -126, 127, 192, 0x47EFFFFFE0000000⟩

/-- What a double stands for. `num` is (-1)^neg * m * 2^e with m > 0. -/
inductive FpVal where
  | nan
  | inf (neg : Bool)
  | zero (neg : Bool)
  | num (neg : Bool) (m : Nat) (e : Int)
deriving DecidableEq, Repr

/-- The sign bit. -/
def dSign (d : Dword) : Bool := d.getMsbD 0

/-- The biased exponent, bits 1:11. -/
def dExp (d : Dword) : Nat := (d.extractLsb' 52 11).toNat

/-- The fraction, bits 12:63. -/
def dFrac (d : Dword) : Nat := (d.extractLsb' 0 52).toNat

/-- A NaN. -/
def isNan (d : Dword) : Bool := dExp d == 2047 && dFrac d != 0

/-- A signaling NaN: bit 12 is 0. -/
def isSnan (d : Dword) : Bool := isNan d && !d.getMsbD 12

/-- The class and value of a double (R421). -/
def unpack (d : Dword) : FpVal :=
  if dExp d = 2047 then (if dFrac d = 0 then .inf (dSign d) else .nan)
  else if dExp d = 0 then (if dFrac d = 0 then .zero (dSign d) else .num (dSign d) (dFrac d) (-1074))
  else .num (dSign d) (2 ^ 52 + dFrac d) (Int.ofNat (dExp d) - 1075)

/-- The exponent of the leading bit of m * 2^e. -/
def leadExp (m : Nat) (e : Int) : Int := e + Int.ofNat (Nat.log2 m)

/-- Non-IEEE mode replaces a denormalized operand, in the format of the instruction, by a zero of its sign (R423;
log entry 21). -/
def FpVal.flush (v : FpVal) (fmt : FpFormat) (ni : Bool) : FpVal :=
  match v with
  | .num neg m e => if ni && decide (leadExp m e < fmt.emin) then .zero neg else v
  | .nan => v
  | .inf _ => v
  | .zero _ => v

/-- The value is representable in single format (R421); a NaN needs FPR[35:63] = 0. -/
def singleRepresentable (d : Dword) (v : FpVal) : Bool :=
  match v with
  | .nan => d.extractLsb' 0 29 == 0
  | .inf _ => true
  | .zero _ => true
  | .num _ m e =>
    let u := max (leadExp m e - 23) (-149)
    decide (leadExp m e ≤ 127) && (decide (u ≤ e) || m % 2 ^ (u - e).toNat == 0)

/-- The double whose value is (-1)^neg * q * 2^x, for q of at most 53 bits that fits the format. -/
def encodeDouble (neg : Bool) (q : Nat) (x : Int) : Dword :=
  let body : Nat :=
    if q = 0 then 0
    else if leadExp q x < -1022 then q * 2 ^ (x + 1074).toNat
    else (leadExp q x + 1023).toNat * 2 ^ 52 + (q * 2 ^ 52 / 2 ^ Nat.log2 q - 2 ^ 52)
  bit1 neg ++ BitVec.ofNat 63 body

/-- An infinity. -/
def infDouble (neg : Bool) : Dword := bit1 neg ++ (2047#11 ++ 0#52)

/-! ### Exact operations -/

/-- The opposite value. -/
def FpVal.neg : FpVal → FpVal
  | .nan => .nan
  | .inf n => .inf (!n)
  | .zero n => .zero (!n)
  | .num n m e => .num (!n) m e

/-- A signed integer multiple of 2^e as a value; an exact zero takes the sign `z`. -/
def ofInt (x : Int) (e : Int) (z : Bool) : FpVal := if x = 0 then .zero z else .num (decide (x < 0)) x.natAbs e

/-- The exact sum; `down` is rounding toward -infinity, in which an exact zero of opposite signs is -0 (R430). -/
def FpVal.add (down : Bool) : FpVal → FpVal → FpVal
  | .nan, _ => .nan
  | _, .nan => .nan
  | .inf n, _ => .inf n
  | _, .inf n => .inf n
  | .zero a, .zero b => .zero (if a = b then a else down)
  | .zero _, .num n m e => .num n m e
  | .num n m e, .zero _ => .num n m e
  | .num a m e, .num b k f =>
    let g := min e f
    let x : Int := Int.ofNat (m * 2 ^ (e - g).toNat)
    let y : Int := Int.ofNat (k * 2 ^ (f - g).toNat)
    ofInt ((if a then -x else x) + (if b then -y else y)) g down

/-- The exact product (R434). -/
def FpVal.mul : FpVal → FpVal → FpVal
  | .nan, _ => .nan
  | _, .nan => .nan
  | .inf a, .inf b => .inf (a != b)
  | .inf a, .num b _ _ => .inf (a != b)
  | .num a _ _, .inf b => .inf (a != b)
  | .inf _, .zero _ => .nan
  | .zero _, .inf _ => .nan
  | .zero a, .zero b => .zero (a != b)
  | .zero a, .num b _ _ => .zero (a != b)
  | .num a _ _, .zero b => .zero (a != b)
  | .num a m e, .num b k f => .num (a != b) (m * k) (e + f)

/-- The quotient with a sticky bit (R436); a finite number by zero is an infinity. -/
def FpVal.div : FpVal → FpVal → FpVal
  | .nan, _ => .nan
  | _, .nan => .nan
  | .inf _, .inf _ => .nan
  | .zero _, .zero _ => .nan
  | .inf a, .zero b => .inf (a != b)
  | .inf a, .num b _ _ => .inf (a != b)
  | .zero a, .inf b => .zero (a != b)
  | .num a _ _, .inf b => .zero (a != b)
  | .zero a, .num b _ _ => .zero (a != b)
  | .num a _ _, .zero b => .inf (a != b)
  | .num a m e, .num b k f =>
    let n := m * 2 ^ 128
    .num (a != b) (2 * (n / k) + (if n % k = 0 then 0 else 1)) (e - f - 129)

/-- The value is an infinity. -/
def FpVal.isInf : FpVal → Bool
  | .inf _ => true
  | .nan => false
  | .zero _ => false
  | .num _ _ _ => false

/-- The value is a zero. -/
def FpVal.isZero : FpVal → Bool
  | .zero _ => true
  | .nan => false
  | .inf _ => false
  | .num _ _ _ => false

/-- The value is finite and not zero. -/
def FpVal.isNum : FpVal → Bool
  | .num _ _ _ => true
  | .nan => false
  | .inf _ => false
  | .zero _ => false

/-- The sign of a value. -/
def FpVal.isNeg : FpVal → Bool
  | .nan => false
  | .inf n => n
  | .zero n => n
  | .num n _ _ => n

/-! ### FPSCR (R33, R428) -/

def fpOX : Word := beMask 3
def fpUX : Word := beMask 4
def fpZX : Word := beMask 5
def fpXX : Word := beMask 6
def fpVXSNAN : Word := beMask 7
def fpVXISI : Word := beMask 8
def fpVXIDI : Word := beMask 9
def fpVXZDZ : Word := beMask 10
def fpVXIMZ : Word := beMask 11
def fpVXVC : Word := beMask 12
def fpVXSQRT : Word := beMask 22
def fpVXCVI : Word := beMask 23

/-- The exception bits: OX to XX, and every VX bit. -/
def fpExceptions : Word := 0x1FF80700

/-- FX and the exception bits, what `mcrfs` clears (R461). -/
def fpSticky : Word := 0x9FF80700

/-- The bits a move to the FPSCR can write: not FEX, VX and the reserved bit 20 (R462 to R465). -/
def fpWritable : Word := 0x9FFFF7FF

/-- VX and FEX recomputed (R428). -/
def fpSummary (w : Word) : Word :=
  let vx : Bool := w &&& 0x01F80700 != 0
  let fex := (vx && beBit w 24) || (beBit w 3 && beBit w 25) || (beBit w 4 && beBit w 26) || (beBit w 5 && beBit w 27)
    || (beBit w 6 && beBit w 28)
  setBeBit (setBeBit w 2 vx) 1 fex

/-- The FPSCR after an instruction that may raise exception bits: FX is set if one changed from 0 to 1 (R428). -/
def fpSettle (old new : Word) : Word :=
  fpSummary (if new &&& ~~~old &&& fpExceptions != 0 then setBeBit new 0 true else new)

/-- FPSCR[NI]. -/
def fpNI (w : Word) : Bool := beBit w 29

/-- FPSCR[VE]. -/
def fpVE (w : Word) : Bool := beBit w 24

/-- Rounding modes (R425). -/
inductive Rounding where
  | nearest
  | towardZero
  | up
  | down
deriving DecidableEq, Repr

/-- FPSCR[RN]. -/
def fpRN (w : Word) : Rounding :=
  match (w.extractLsb' 0 2).toNat with
  | 0 => .nearest
  | 1 => .towardZero
  | 2 => .up
  | _ => .down

/-! ### Rounding (R425, R426 step 5) -/

/-- A magnitude rounded to a multiple of 2^u: the multiple, whether it is inexact, whether it was increased. -/
structure Rounded where
  q : Nat
  inexact : Bool
  increased : Bool
deriving DecidableEq, Repr

/-- Rounds m * 2^e, of sign `neg`, to a multiple of 2^u (R425). -/
def roundAt (rn : Rounding) (neg : Bool) (m : Nat) (e u : Int) : Rounded :=
  if u ≤ e then ⟨m * 2 ^ (e - u).toNat, false, false⟩
  else
    let k := (u - e).toNat
    let q := m / 2 ^ k
    let r := m % 2 ^ k
    let inc : Bool := match rn with
      | .nearest => decide (2 ^ k < 2 * r) || (2 * r == 2 ^ k && q % 2 == 1)
      | .towardZero => false
      | .up => r != 0 && !neg
      | .down => r != 0 && neg
    ⟨if inc then q + 1 else q, r != 0, inc⟩

/-- What an operation does. `write` is the result delivered and FPRF, absent when they stay unchanged; `fr` and
`fi` are absent when FR and FI are undefined. -/
structure FpOut where
  exc : Word
  write : Option (Dword × BitVec 5)
  fr : Option Bool
  fi : Option Bool
deriving DecidableEq, Repr

/-- FPRF of a zero, an infinity, a normalized and a denormalized number (R427). -/
def classZero (neg : Bool) : BitVec 5 := if neg then 0b10010 else 0b00010

def classInf (neg : Bool) : BitVec 5 := if neg then 0b01001 else 0b00101

def classNormal (neg : Bool) : BitVec 5 := if neg then 0b01000 else 0b00100

def classDenormal (neg : Bool) : BitVec 5 := if neg then 0b11000 else 0b10100

/-- Whether overflow with OE = 0 delivers infinity and not the largest finite number (R426). -/
def overflowsToInf (rn : Rounding) (neg : Bool) : Bool :=
  match rn with
  | .nearest => true
  | .towardZero => false
  | .up => !neg
  | .down => neg

/-- Rounds an exact value to a format and delivers it (R425, R426 step 5). `flip` inverts the sign of what is
delivered, after rounding (R445). A NaN does not reach this function. A result with an adjusted exponent has the class
normalized, also one that `frsp` or `fres` leaves outside the range of singles: R427 names no class for it, the model's
choice (log entry 55). -/
def roundTo (fmt : FpFormat) (w : Word) (flip : Bool) (v : FpVal) : FpOut :=
  match v with
  | .nan => ⟨0, none, some false, some false⟩
  | .inf n => ⟨0, some (infDouble (n != flip), classInf (n != flip)), some false, some false⟩
  | .zero n => ⟨0, some (encodeDouble (n != flip) 0 0, classZero (n != flip)), some false, some false⟩
  | .num n m e =>
    let neg := n != flip
    let rn := fpRN w
    let u := leadExp m e - Int.ofNat (fmt.prec - 1)
    let r := roundAt rn n m e u
    let xx : Word := if r.inexact then fpXX else 0
    if fmt.emax < leadExp r.q u then
      if beBit w 25 then
        ⟨fpOX ||| xx, some (encodeDouble neg r.q (u - fmt.adjust), classNormal neg), some r.increased,
          some r.inexact⟩
      else if overflowsToInf rn n then ⟨fpOX ||| fpXX, some (infDouble neg, classInf neg), none, some true⟩
      else ⟨fpOX ||| fpXX, some (bit1 neg ++ fmt.largest.extractLsb' 0 63, classNormal neg), none, some true⟩
    else if leadExp m e < fmt.emin then
      if beBit w 26 then
        ⟨fpUX ||| xx, some (encodeDouble neg r.q (u + fmt.adjust), classNormal neg), some r.increased,
          some r.inexact⟩
      else
        let ud := fmt.emin - Int.ofNat (fmt.prec - 1)
        let d := roundAt rn n m e ud
        let ux : Word := if d.inexact then fpUX ||| fpXX else 0
        if d.q = 0 then ⟨ux, some (encodeDouble neg 0 0, classZero neg), some d.increased, some d.inexact⟩
        else if d.q < 2 ^ (fmt.prec - 1) then
          if fpNI w then ⟨fpUX ||| fpXX, some (encodeDouble neg 0 0, classZero neg), some false, some true⟩
          else ⟨ux, some (encodeDouble neg d.q ud, classDenormal neg), some d.increased, some d.inexact⟩
        else ⟨ux, some (encodeDouble neg d.q ud, classNormal neg), some d.increased, some d.inexact⟩
    else ⟨xx, some (encodeDouble neg r.q u, classNormal neg), some r.increased, some r.inexact⟩

/-! ### NaNs and invalid operations (R426 steps 2, 3, 6) -/

/-- The default QNaN. -/
def defaultNan : Dword := 0x7FF8000000000000

/-- A NaN operand as a result: made quiet, and in single format with FPR[35:63] cleared. -/
def deliverNan (fmt : FpFormat) (d : Dword) : Dword :=
  let q := d ||| 0x0008000000000000
  if fmt = fmtSingle then q &&& 0xFFFFFFFFE0000000 else q

/-- Invalid operations, NaN operands, or else the result `r` (R426 steps 2, 3, 6). `ops` in order of priority. -/
def fpSelect (fmt : FpFormat) (w : Word) (ops : List Dword) (vx : Word) (r : FpOut) : FpOut :=
  let v := vx ||| (if ops.any isSnan then fpVXSNAN else 0)
  if v = 0 then
    match ops.find? isNan with
    | some d => ⟨0, some (deliverNan fmt d, 0b10001), some false, some false⟩
    | none => r
  else if fpVE w then ⟨v, none, some false, some false⟩
  else
    match ops.find? isNan with
    | some d => ⟨v, some (deliverNan fmt d, 0b10001), some false, some false⟩
    | none => ⟨v, some (defaultNan, 0b10001), some false, some false⟩

/-- Zero divide (R426 step 7). -/
def zeroDivide (w : Word) (neg : Bool) : FpOut :=
  if beBit w 27 then ⟨fpZX, none, some false, some false⟩
  else ⟨fpZX, some (infDouble neg, classInf neg), some false, some false⟩

/-- The operand value an operation uses: non-IEEE mode flushes (R426 step 1). -/
def fpOperand (fmt : FpFormat) (w : Word) (d : Dword) : FpVal := (unpack d).flush fmt (fpNI w)

/-- a + b, or a - b with `minus` (R430, R432). -/
def fpAdd (fmt : FpFormat) (w : Word) (minus : Bool) (a b : Dword) : FpOut :=
  let x := fpOperand fmt w a
  let y0 := fpOperand fmt w b
  let y := if minus then y0.neg else y0
  let vx := if x.isInf && y.isInf && x.isNeg != y.isNeg then fpVXISI else 0
  fpSelect fmt w [a, b] vx (roundTo fmt w false (x.add (fpRN w = .down) y))

/-- a * c (R434). -/
def fpMul (fmt : FpFormat) (w : Word) (a c : Dword) : FpOut :=
  let x := fpOperand fmt w a
  let y := fpOperand fmt w c
  let vx := if (x.isInf && y.isZero) || (x.isZero && y.isInf) then fpVXIMZ else 0
  fpSelect fmt w [a, c] vx (roundTo fmt w false (x.mul y))

/-- a / b (R436). -/
def fpDiv (fmt : FpFormat) (w : Word) (a b : Dword) : FpOut :=
  let x := fpOperand fmt w a
  let y := fpOperand fmt w b
  let vx := if x.isInf && y.isInf then fpVXIDI else if x.isZero && y.isZero then fpVXZDZ else 0
  fpSelect fmt w [a, b] vx
    (if x.isNum && y.isZero then zeroDivide w (x.isNeg != y.isNeg) else roundTo fmt w false (x.div y))

/-- (a * c) + b, with `minus` (a * c) - b, with `flip` the opposite of the rounded result (R441 to R448). -/
def fpMulAdd (fmt : FpFormat) (w : Word) (minus flip : Bool) (a c b : Dword) : FpOut :=
  let x := fpOperand fmt w a
  let y := fpOperand fmt w c
  let z0 := fpOperand fmt w b
  let z := if minus then z0.neg else z0
  let p := x.mul y
  let imz := if (x.isInf && y.isZero) || (x.isZero && y.isInf) then fpVXIMZ else 0
  let isi := if p.isInf && z.isInf && p.isNeg != z.isNeg then fpVXISI else 0
  fpSelect fmt w [a, b, c] (imz ||| isi) (roundTo fmt w flip (p.add (fpRN w = .down) z))

/-- Rounding to single (R450). A denormalized operand is one of the double format. -/
def fpRoundSingle (w : Word) (b : Dword) : FpOut :=
  fpSelect fmtSingle w [b] 0 (roundTo fmtSingle w false (fpOperand fmtDouble w b))

/-! ### Estimates (R438, R439; 92 D16; log entry 26) -/

/-- |t| ≤ d for a difference of two natural numbers. -/
def within (a b d : Nat) : Bool := decide (a ≤ b + d) && decide (b ≤ a + d)

/-- The estimate `d` of 1/(m * 2^e), of sign `neg`, is a normalized single and within 1/256. -/
def fresLegal (neg : Bool) (m : Nat) (e : Int) (d : Dword) : Bool :=
  match unpack d with
  | .num n k f =>
    let t := e + f
    n == neg && singleRepresentable d (unpack d) && decide (-126 ≤ leadExp k f)
      && decide (t ≤ 0) && within (256 * (m * k)) (256 * 2 ^ (-t).toNat) (2 ^ (-t).toNat)
  | .nan => false
  | .inf _ => false
  | .zero _ => false

/-- The estimate `d` of 1/sqrt(m * 2^e) is a positive number within 1/32. -/
def frsqrteLegal (m : Nat) (e : Int) (d : Dword) : Bool :=
  match unpack d with
  | .num n k f =>
    let t := e + 2 * f
    !n && decide (-1022 ≤ leadExp k f) && decide (t ≤ 0)
      && decide (961 * 2 ^ (-t).toNat ≤ 1024 * (m * k * k)) && decide (1024 * (m * k * k) ≤ 1089 * 2 ^ (-t).toNat)
  | .nan => false
  | .inf _ => false
  | .zero _ => false

/-- The integer square root of `n`, of at most `k` bits, found bit by bit from `r`. -/
def isqrtFrom (n : Nat) : Nat → Nat → Nat
  | 0, r => r
  | k + 1, r => isqrtFrom n k (if (r + 2 ^ k) * (r + 2 ^ k) ≤ n then r + 2 ^ k else r)

/-- 1/sqrt(m * 2^e) with a sticky bit. -/
def invSqrt (m : Nat) (e : Int) : FpVal :=
  let odd : Bool := e % 2 != 0
  let m2 := if odd then 2 * m else m
  let e2 := if odd then e - 1 else e
  let q := isqrtFrom (2 ^ 256 / m2) 129 0
  .num false (2 * q + (if q * q * m2 = 2 ^ 256 then 0 else 1)) (-(e2 / 2) - 129)

/-- An estimate's outcome: only the exception bits in `keep` can be set, FR and FI are undefined. -/
def estimateOut (keep : Word) (r : FpOut) : FpOut := ⟨r.exc &&& keep, r.write, none, none⟩

/-- `fres` (R438): the part's estimate where it obeys the bound and the reciprocal is in the single range, else
the correctly rounded reciprocal. A NaN is propagated as R426 step 3 delivers it for the single forms, with FPR[35:63]
cleared: R426 does not speak of `fres` and R438 does not say it, the model's choice (log entry 26). -/
def fpRes (w : Word) (b : Dword) : FpOut :=
  let x := fpOperand fmtDouble w b
  let r := match x with
    | .zero n => zeroDivide w n
    | .num n m e =>
      let exact := roundTo fmtSingle w false ((FpVal.num false 1 0).div x)
      let est := Config.fresEstimate b
      if exact.exc &&& (fpOX ||| fpUX) = 0 ∧ fresLegal n m e est = true then
        ⟨0, some (est, classNormal n), none, none⟩
      else exact
    | .inf n => roundTo fmtSingle w false (.zero n)
    | .nan => roundTo fmtSingle w false .nan
  estimateOut (fpOX ||| fpUX ||| fpZX ||| fpVXSNAN) (fpSelect fmtSingle w [b] 0 r)

/-- `frsqrte` (R439). -/
def fpRsqrte (w : Word) (b : Dword) : FpOut :=
  let x := fpOperand fmtDouble w b
  let vx := if x.isNeg && (x.isNum || x.isInf) then fpVXSQRT else 0
  let r := match x with
    | .zero n => zeroDivide w n
    | .num _ m e =>
      let est := Config.frsqrteEstimate b
      if frsqrteLegal m e est then ⟨0, some (est, classNormal false), none, none⟩
      else roundTo fmtDouble w false (invSqrt m e)
    | .inf n => roundTo fmtDouble w false (.zero n)
    | .nan => roundTo fmtDouble w false .nan
  estimateOut (fpZX ||| fpVXSNAN ||| fpVXSQRT) (fpSelect fmtDouble w [b] vx r)

/-! ### Conversions (R451, R452, R470, R471) -/

/-- A conversion to a 32-bit integer: the exception bits, the integer (absent when frD stays), FR and FI. -/
structure IntOut where
  exc : Word
  write : Option Word
  fr : Bool
  fi : Bool
deriving DecidableEq, Repr

/-- An invalid conversion, delivering `v` if VE = 0 (R451). -/
def invalidInt (w exc v : Word) : IntOut := ⟨exc, if fpVE w then none else some v, false, false⟩

/-- Conversion to a signed word, rounding by `rn` (R451; R424 for NI = 1). -/
def fpToInt (w : Word) (rn : Rounding) (b : Dword) : IntOut :=
  let tooHigh : Word := if fpNI w then 0x80000000 else 0x7FFFFFFF
  match fpOperand fmtDouble w b with
  | .nan => invalidInt w (fpVXCVI ||| (if isSnan b then fpVXSNAN else 0)) 0x80000000
  | .inf n => invalidInt w fpVXCVI (if n then 0x80000000 else tooHigh)
  | .zero _ => ⟨0, some 0, false, false⟩
  | .num n m e =>
    let r := roundAt rn n m e 0
    if n = false ∧ 2147483647 < r.q then invalidInt w fpVXCVI tooHigh
    else if n = true ∧ 2147483648 < r.q then invalidInt w fpVXCVI 0x80000000
    else ⟨if r.inexact then fpXX else 0, some (if n then -(BitVec.ofNat 32 r.q) else BitVec.ofNat 32 r.q),
      r.increased, r.inexact⟩

/-- `DOUBLE(w)` (R470). -/
def doubleOf (w : Word) : Dword :=
  let s : BitVec 1 := w.extractLsb' 31 1
  let e : BitVec 8 := w.extractLsb' 23 8
  let f : BitVec 23 := w.extractLsb' 0 23
  if e = 0 ∧ f ≠ 0 then
    let k := 23 - Nat.log2 f.toNat
    s ++ BitVec.ofNat 11 (897 - k) ++ (f <<< k) ++ 0#29
  else
    let c : Bool := if e = 0 ∨ e = 255 then w.getMsbD 1 else !w.getMsbD 1
    w.extractLsb' 30 2 ++ bit1 c ++ bit1 c ++ bit1 c ++ w.extractLsb' 0 30 ++ 0#29

/-- `SINGLE(d)` (R471); `free` gives the bits that are undefined (log entry 27). -/
def singleOf (d : Dword) (free : Word) : Word :=
  if 896 < dExp d ∨ d.extractLsb' 0 63 = 0 then d.extractLsb' 62 2 ++ d.extractLsb' 29 30
  else if 874 ≤ dExp d then
    let m : BitVec 24 := 1#1 ++ d.extractLsb' 29 23
    d.extractLsb' 63 1 ++ 0#8 ++ (m >>> (897 - dExp d)).setWidth 23
  else if dExp d = 0 then free &&& 0x80000000
  else free

/-! ### Compares (R455) -/

/-- a < b for values that are no NaNs. -/
def fpLess (a b : FpVal) : Bool :=
  match FpVal.add false b a.neg with
  | .num n _ _ => !n
  | .inf n => !n && !(a.isInf && b.isInf && a.isNeg == b.isNeg)
  | .zero _ => false
  | .nan => false

/-- The four compare bits (R455). -/
def fpCompare (w : Word) (a b : Dword) : BitVec 4 :=
  let x := fpOperand fmtDouble w a
  let y := fpOperand fmtDouble w b
  if isNan a || isNan b then 0b0001
  else if fpLess x y then 0b1000
  else if fpLess y x then 0b0100
  else 0b0010

end Sys2Proof.Machine
end

