-- ==== Sys2Proof/Machine/Float.lean ====
section
/-! DEFINITION. Machine/Float.lean: the floating-point instructions (41_float.md R430 to R469). -/

namespace Sys2Proof.Machine

/-- The end of a floating-point instruction: CR1 if Rc = 1, then the enabled-exception test (R429, R770; all
modes precise, log entry 44). One that takes this exception has completed (R429): its address is kept for SIA (R846; log
entry 36). -/
def State.fpDone (s : State) (rc : Bool) : Result :=
  let s1 := s.recordFpIf rc
  if s1.msrFE && beBit s1.fpscr 1 then .next ({ s1 with lastIa := s1.pc }.takeFpEnabled s1.pc) else .next s1.advance

/-- A bit, drawn when it is undefined. -/
def State.bitOrFree (s : State) (b : Option Bool) : Bool × State :=
  match b with
  | some b => (b, s)
  | none => s.drawBit

/-- The FPSCR with FR and FI written, and with FPRF written if it is given. -/
def fpscrStatus (w : Word) (fprf : Option (BitVec 5)) (fr fi : Bool) : Word :=
  let w1 := match fprf with
    | some c => (w &&& 0xFFFE0FFF) ||| (c.setWidth 32 <<< 12)
    | none => w
  setBeBit (setBeBit w1 13 fr) 14 fi

/-- Writes what an arithmetic operation, `single` or not, delivers (R426, R428). -/
def State.putFloat (s : State) (single : Bool) (frD : Reg) (r : FpOut) (rc : Bool) : Result :=
  let fr := s.bitOrFree r.fr
  let fi := fr.2.bitOrFree r.fi
  let s1 := { fi.2 with
    fpscr := fpSettle s.fpscr (fpscrStatus (s.fpscr ||| r.exc) (r.write.map Prod.snd) fr.1 fi.1) }
  State.fpDone (match r.write with
    | some (d, _) => s1.putFpr single frD d
    | none => s1) rc

/-- An operand that is not representable in single format (R422): the register's value, before the flush of non-IEEE
mode (log entry 24). -/
def notSingle (d : Dword) : Bool := !singleRepresentable d (unpack d)

/-- A single-precision arithmetic instruction: with an operand that is no single, frD, FPRF, FR, FI and the
exception bits it could set are undefined (R422; log entry 24). -/
def State.putSingle (s : State) (frD : Reg) (ops : List Dword) (could : Word) (r : FpOut) (rc : Bool) : Result :=
  if ops.any notSingle then
    let d := s.drawDword
    let f := d.2.drawWord
    let m := could ||| 0x0007F000
    ({ f.2 with fpscr := fpSettle s.fpscr ((s.fpscr &&& ~~~m) ||| (f.1 &&& m)) }.putFpr true frD d.1).fpDone rc
  else s.putFloat true frD r rc

/-- The exception bits additions and subtractions can set (R430). -/
def couldAdd : Word := fpOX ||| fpUX ||| fpXX ||| fpVXSNAN ||| fpVXISI

/-- Those of multiplications (R434). -/
def couldMul : Word := fpOX ||| fpUX ||| fpXX ||| fpVXSNAN ||| fpVXIMZ

/-- Those of divisions (R436). -/
def couldDiv : Word := fpOX ||| fpUX ||| fpZX ||| fpXX ||| fpVXSNAN ||| fpVXIDI ||| fpVXZDZ

/-- Those of multiply-adds (R441). -/
def couldMulAdd : Word := fpOX ||| fpUX ||| fpXX ||| fpVXSNAN ||| fpVXISI ||| fpVXIMZ

/-- Writes what a conversion to an integer delivers: the high word of frD and FPRF are undefined (R451; log
entry 25). -/
def State.putInt (s : State) (frD : Reg) (r : IntOut) (rc : Bool) : Result :=
  match r.write with
  | some v =>
    let h := s.drawWord
    let c := h.2.drawWord
    ({ c.2 with fpscr := fpSettle s.fpscr (fpscrStatus (s.fpscr ||| r.exc) (some (c.1.setWidth 5)) r.fr r.fi) }.writeFpr
      frD (h.1 ++ v)).fpDone rc
  | none => { s with fpscr := fpSettle s.fpscr (fpscrStatus (s.fpscr ||| r.exc) none r.fr r.fi) }.fpDone rc

/-- Writes a comparison to FPCC and to a CR field, which is undefined if bit 31 is 1 (R455, R295; log entry 6). -/
def State.putFloatCompare (s : State) (crfD : BitVec 3) (c : BitVec 4) (exc : Word) (rc : Bool) : Result :=
  let s1 := { s with fpscr := fpSettle s.fpscr (((s.fpscr &&& 0xFFFF0FFF) ||| (c.setWidth 32 <<< 12)) ||| exc) }
  State.fpDone (if rc then s1.undefineCrField crfD.toNat else s1.setCrField crfD.toNat c) false

/-- Copies a value to an FPR (R440, R466 to R469). -/
def State.putMove (s : State) (frD : Reg) (d : Dword) (rc : Bool) : Result := (s.writeFpr frD d).fpDone rc

/-- A move to the FPSCR of the bits of `v` selected by `m` (R462 to R464); `settles` says that FX follows the
exception bits that go from 0 to 1 (R428). -/
def State.putFpscr (s : State) (m v : Word) (settles : Bool) (rc : Bool) : Result :=
  let w := (s.fpscr &&& ~~~(m &&& fpWritable)) ||| (v &&& m &&& fpWritable)
  { s with fpscr := if settles then fpSettle s.fpscr w else fpSummary w }.fpDone rc

/-- R430. -/
def execFadd (frD frA frB : Reg) (rc : Bool) (s : State) : Result :=
  s.needFp (s.putFloat false frD (fpAdd fmtDouble s.fpscr false (s.readFpr frA) (s.readFpr frB)) rc)

/-- R431. -/
def execFadds (frD frA frB : Reg) (rc : Bool) (s : State) : Result :=
  s.needFp (s.putSingle frD [s.readFpr frA, s.readFpr frB] couldAdd
    (fpAdd fmtSingle s.fpscr false (s.readFpr frA) (s.readFpr frB)) rc)

/-- R432. -/
def execFsub (frD frA frB : Reg) (rc : Bool) (s : State) : Result :=
  s.needFp (s.putFloat false frD (fpAdd fmtDouble s.fpscr true (s.readFpr frA) (s.readFpr frB)) rc)

/-- R433. -/
def execFsubs (frD frA frB : Reg) (rc : Bool) (s : State) : Result :=
  s.needFp (s.putSingle frD [s.readFpr frA, s.readFpr frB] couldAdd
    (fpAdd fmtSingle s.fpscr true (s.readFpr frA) (s.readFpr frB)) rc)

/-- R434. -/
def execFmul (frD frA frC : Reg) (rc : Bool) (s : State) : Result :=
  s.needFp (s.putFloat false frD (fpMul fmtDouble s.fpscr (s.readFpr frA) (s.readFpr frC)) rc)

/-- R435. -/
def execFmuls (frD frA frC : Reg) (rc : Bool) (s : State) : Result :=
  s.needFp (s.putSingle frD [s.readFpr frA, s.readFpr frC] couldMul
    (fpMul fmtSingle s.fpscr (s.readFpr frA) (s.readFpr frC)) rc)

/-- R436. -/
def execFdiv (frD frA frB : Reg) (rc : Bool) (s : State) : Result :=
  s.needFp (s.putFloat false frD (fpDiv fmtDouble s.fpscr (s.readFpr frA) (s.readFpr frB)) rc)

/-- R437. -/
def execFdivs (frD frA frB : Reg) (rc : Bool) (s : State) : Result :=
  s.needFp (s.putSingle frD [s.readFpr frA, s.readFpr frB] couldDiv
    (fpDiv fmtSingle s.fpscr (s.readFpr frA) (s.readFpr frB)) rc)

/-- R438. -/
def execFres (frD frB : Reg) (rc : Bool) (s : State) : Result :=
  s.needFp (s.putFloat true frD (fpRes s.fpscr (s.readFpr frB)) rc)

/-- R439. -/
def execFrsqrte (frD frB : Reg) (rc : Bool) (s : State) : Result :=
  s.needFp (s.putFloat false frD (fpRsqrte s.fpscr (s.readFpr frB)) rc)

/-- R440: frA ≥ 0.0 selects frC; a NaN or a negative number selects frB. FPSCR[NI] has no part in it: a negative
denormalized frA selects frB (log entry 21). -/
def execFsel (frD frA frB frC : Reg) (rc : Bool) (s : State) : Result :=
  s.needFp (s.putMove frD
    (if !isNan (s.readFpr frA) && (!dSign (s.readFpr frA) || (unpack (s.readFpr frA)).isZero) then s.readFpr frC
      else s.readFpr frB) rc)

/-- R441. -/
def execFmadd (frD frA frB frC : Reg) (rc : Bool) (s : State) : Result :=
  s.needFp (s.putFloat false frD (fpMulAdd fmtDouble s.fpscr false false (s.readFpr frA) (s.readFpr frC) (s.readFpr frB)) rc)

/-- R442. -/
def execFmadds (frD frA frB frC : Reg) (rc : Bool) (s : State) : Result :=
  s.needFp (s.putSingle frD [s.readFpr frA, s.readFpr frB, s.readFpr frC] couldMulAdd
    (fpMulAdd fmtSingle s.fpscr false false (s.readFpr frA) (s.readFpr frC) (s.readFpr frB)) rc)

/-- R443. -/
def execFmsub (frD frA frB frC : Reg) (rc : Bool) (s : State) : Result :=
  s.needFp (s.putFloat false frD (fpMulAdd fmtDouble s.fpscr true false (s.readFpr frA) (s.readFpr frC) (s.readFpr frB)) rc)

/-- R444. -/
def execFmsubs (frD frA frB frC : Reg) (rc : Bool) (s : State) : Result :=
  s.needFp (s.putSingle frD [s.readFpr frA, s.readFpr frB, s.readFpr frC] couldMulAdd
    (fpMulAdd fmtSingle s.fpscr true false (s.readFpr frA) (s.readFpr frC) (s.readFpr frB)) rc)

/-- R445. -/
def execFnmadd (frD frA frB frC : Reg) (rc : Bool) (s : State) : Result :=
  s.needFp (s.putFloat false frD (fpMulAdd fmtDouble s.fpscr false true (s.readFpr frA) (s.readFpr frC) (s.readFpr frB)) rc)

/-- R446. -/
def execFnmadds (frD frA frB frC : Reg) (rc : Bool) (s : State) : Result :=
  s.needFp (s.putSingle frD [s.readFpr frA, s.readFpr frB, s.readFpr frC] couldMulAdd
    (fpMulAdd fmtSingle s.fpscr false true (s.readFpr frA) (s.readFpr frC) (s.readFpr frB)) rc)

/-- R447. -/
def execFnmsub (frD frA frB frC : Reg) (rc : Bool) (s : State) : Result :=
  s.needFp (s.putFloat false frD (fpMulAdd fmtDouble s.fpscr true true (s.readFpr frA) (s.readFpr frC) (s.readFpr frB)) rc)

/-- R448. -/
def execFnmsubs (frD frA frB frC : Reg) (rc : Bool) (s : State) : Result :=
  s.needFp (s.putSingle frD [s.readFpr frA, s.readFpr frB, s.readFpr frC] couldMulAdd
    (fpMulAdd fmtSingle s.fpscr true true (s.readFpr frA) (s.readFpr frC) (s.readFpr frB)) rc)

/-- R450. -/
def execFrsp (frD frB : Reg) (rc : Bool) (s : State) : Result :=
  s.needFp (s.putFloat true frD (fpRoundSingle s.fpscr (s.readFpr frB)) rc)

/-- R451. -/
def execFctiw (frD frB : Reg) (rc : Bool) (s : State) : Result :=
  s.needFp (s.putInt frD (fpToInt s.fpscr (fpRN s.fpscr) (s.readFpr frB)) rc)

/-- R452. -/
def execFctiwz (frD frB : Reg) (rc : Bool) (s : State) : Result :=
  s.needFp (s.putInt frD (fpToInt s.fpscr .towardZero (s.readFpr frB)) rc)

/-- VXSNAN of a compare (R455). -/
def compareSnan (a b : Dword) : Word := if isSnan a || isSnan b then fpVXSNAN else 0

/-- VXVC of an ordered compare: a NaN operand, except that a signaling one sets it only with VE = 0 (R456). -/
def compareOrdered (w : Word) (a b : Dword) : Word :=
  if isSnan a || isSnan b then (if fpVE w then 0 else fpVXVC)
  else if isNan a || isNan b then fpVXVC else 0

/-- R455. -/
def execFcmpu (crfD : BitVec 3) (frA frB : Reg) (rc : Bool) (s : State) : Result :=
  s.needFp (s.putFloatCompare crfD (fpCompare s.fpscr (s.readFpr frA) (s.readFpr frB))
    (compareSnan (s.readFpr frA) (s.readFpr frB)) rc)

/-- R456. -/
def execFcmpo (crfD : BitVec 3) (frA frB : Reg) (rc : Bool) (s : State) : Result :=
  s.needFp (s.putFloatCompare crfD (fpCompare s.fpscr (s.readFpr frA) (s.readFpr frB))
    (compareSnan (s.readFpr frA) (s.readFpr frB) ||| compareOrdered s.fpscr (s.readFpr frA) (s.readFpr frB)) rc)

/-- R460: the high word is undefined (log entry 25). -/
def execMffs (frD : Reg) (rc : Bool) (s : State) : Result :=
  s.needFp (s.drawWord.2.putMove frD (s.drawWord.1 ++ s.fpscr) rc)

/-- R461: the field is copied, then its exception bits are cleared. -/
def execMcrfs (crfD crfS : BitVec 3) (s : State) : Result :=
  s.needFp (State.fpDone { s.setCrField crfD.toNat (getField4 s.fpscr crfS.toNat) with
    fpscr := fpSummary (s.fpscr &&& ~~~(fpSticky &&& setField4 0 crfS.toNat 0xF)) } false)

/-- R462. -/
def execMtfsfi (crfD : BitVec 3) (imm : BitVec 4) (rc : Bool) (s : State) : Result :=
  s.needFp (s.putFpscr (setField4 0 crfD.toNat 0xF) (setField4 0 crfD.toNat imm) false rc)

/-- R463. Field 0 selected writes FX as it is moved; not selected, an exception bit that goes from 0 to 1 sets FX (R33,
R428; log entry 54). -/
def execMtfsf (fm : BitVec 8) (frB : Reg) (rc : Bool) (s : State) : Result :=
  s.needFp (s.putFpscr (fieldMask fm) ((s.readFpr frB).setWidth 32) (!fm.getMsbD 0) rc)

/-- R464. -/
def execMtfsb0 (crbD : BitVec 5) (rc : Bool) (s : State) : Result :=
  s.needFp (s.putFpscr (beMask crbD.toNat) 0 false rc)

/-- R465: an exception bit that goes from 0 to 1 sets FX. -/
def execMtfsb1 (crbD : BitVec 5) (rc : Bool) (s : State) : Result :=
  s.needFp (State.fpDone { s with
    fpscr := fpSettle s.fpscr (s.fpscr ||| (beMask crbD.toNat &&& fpWritable)) } rc)

/-- R466. -/
def execFmr (frD frB : Reg) (rc : Bool) (s : State) : Result :=
  s.needFp (s.putMove frD (s.readFpr frB) rc)

/-- R467. -/
def execFneg (frD frB : Reg) (rc : Bool) (s : State) : Result :=
  s.needFp (s.putMove frD ((s.readFpr frB) ^^^ 0x8000000000000000) rc)

/-- R468. -/
def execFabs (frD frB : Reg) (rc : Bool) (s : State) : Result :=
  s.needFp (s.putMove frD ((s.readFpr frB) &&& 0x7FFFFFFFFFFFFFFF) rc)

/-- R469. -/
def execFnabs (frD frB : Reg) (rc : Bool) (s : State) : Result :=
  s.needFp (s.putMove frD ((s.readFpr frB) ||| 0x8000000000000000) rc)

end Sys2Proof.Machine
end

