-- ==== Sys2Proof/Machine/LoadStore.lean ====
section
/-! DEFINITION. Machine/LoadStore.lean: the integer loads and stores (42_loadstore.md R500 to R559). An access comes
first; registers are written only if it raises nothing (R500). -/

namespace Sys2Proof.Machine

/-- The value of some bytes, the most significant first, as a word. -/
def wordOf (bs : List Byte) : Word := BitVec.ofNat 32 (natOfBytes bs)

/-- A load of `n` bytes by the instruction `i`: `put` writes the target with the bytes, the most significant first, and
`rest` what else the instruction writes (R500, R505). -/
def State.loadForm (s : State) (i : Instr) (u : Use) (f : AlignForm) (ea : Word) (n : Nat)
    (put : List Byte → State → State) (rest : State → State) : Result :=
  (s.memRead u ea n).finish (encode i) f ea (fun b t => put (t.orderBytes b) t) rest

/-- A store of bytes, the most significant first; `rest` writes the registers (R500, R505). -/
def State.storeForm (s : State) (i : Instr) (u : Use) (f : AlignForm) (ea : Word) (bs : List Byte)
    (rest : State → State) : Result :=
  (s.memWrite u ea bs).finish (encode i) f ea (fun _ t => t) rest

/-- rA after a load with update: EA; GPR0 undefined for rA = 0; rD undefined for rA = rD (R502). -/
def State.updateLoad (s : State) (rD rA : Reg) (ea : Word) : State :=
  if rA = 0 then s.undefineGpr 0 else if rA = rD then s.undefineGpr rD else s.writeGpr rA ea

/-- rA after a store, or a floating-point load, with update: EA; GPR0 undefined for rA = 0 (R502). -/
def State.updateBase (s : State) (rA : Reg) (ea : Word) : State :=
  if rA = 0 then s.undefineGpr 0 else s.writeGpr rA ea

/-- The low `n` bytes of a word, the most significant first. -/
def lowBytes (n : Nat) (v : Word) : List Byte := bytesOfNat n v.toNat

/-- A halfword load's bytes with the sign extended. -/
def algebraic (bs : List Byte) : Word := (BitVec.ofNat 16 (natOfBytes bs)).signExtend 32

/-- R510. -/
def execLbz (rD rA : Reg) (d : BitVec 16) (s : State) : Result :=
  s.loadForm (.lbz rD rA d) .load .noBase (s.eaD rA d) 1 (fun b t => t.writeGpr rD (wordOf b)) fun t => t

/-- R511. -/
def execLbzx (rD rA rB : Reg) (rc : Bool) (s : State) : Result :=
  s.loadForm (.lbzx rD rA rB rc) .load .noBase (s.eaX rA rB) 1 (fun b t => t.writeGpr rD (wordOf b))
    fun t => t.badRecordBit rc

/-- R512. -/
def execLbzu (rD rA : Reg) (d : BitVec 16) (s : State) : Result :=
  s.loadForm (.lbzu rD rA d) .load .whole (s.eaD rA d) 1 (fun b t => t.writeGpr rD (wordOf b))
    fun t => t.updateLoad rD rA (s.eaD rA d)

/-- R513. -/
def execLbzux (rD rA rB : Reg) (rc : Bool) (s : State) : Result :=
  s.loadForm (.lbzux rD rA rB rc) .load .whole (s.eaX rA rB) 1 (fun b t => t.writeGpr rD (wordOf b))
    fun t => (t.updateLoad rD rA (s.eaX rA rB)).badRecordBit rc

/-- R514. -/
def execLhz (rD rA : Reg) (d : BitVec 16) (s : State) : Result :=
  s.loadForm (.lhz rD rA d) .load .noBase (s.eaD rA d) 2 (fun b t => t.writeGpr rD (wordOf b)) fun t => t

/-- R515. -/
def execLhzx (rD rA rB : Reg) (rc : Bool) (s : State) : Result :=
  s.loadForm (.lhzx rD rA rB rc) .load .noBase (s.eaX rA rB) 2 (fun b t => t.writeGpr rD (wordOf b))
    fun t => t.badRecordBit rc

/-- R516. -/
def execLhzu (rD rA : Reg) (d : BitVec 16) (s : State) : Result :=
  s.loadForm (.lhzu rD rA d) .load .whole (s.eaD rA d) 2 (fun b t => t.writeGpr rD (wordOf b))
    fun t => t.updateLoad rD rA (s.eaD rA d)

/-- R517. -/
def execLhzux (rD rA rB : Reg) (rc : Bool) (s : State) : Result :=
  s.loadForm (.lhzux rD rA rB rc) .load .whole (s.eaX rA rB) 2 (fun b t => t.writeGpr rD (wordOf b))
    fun t => (t.updateLoad rD rA (s.eaX rA rB)).badRecordBit rc

/-- R518. -/
def execLha (rD rA : Reg) (d : BitVec 16) (s : State) : Result :=
  s.loadForm (.lha rD rA d) .load .noBase (s.eaD rA d) 2 (fun b t => t.writeGpr rD (algebraic b)) fun t => t

/-- R519. -/
def execLhax (rD rA rB : Reg) (rc : Bool) (s : State) : Result :=
  s.loadForm (.lhax rD rA rB rc) .load .noBase (s.eaX rA rB) 2 (fun b t => t.writeGpr rD (algebraic b))
    fun t => t.badRecordBit rc

/-- R520. -/
def execLhau (rD rA : Reg) (d : BitVec 16) (s : State) : Result :=
  s.loadForm (.lhau rD rA d) .load .whole (s.eaD rA d) 2 (fun b t => t.writeGpr rD (algebraic b))
    fun t => t.updateLoad rD rA (s.eaD rA d)

/-- R521. -/
def execLhaux (rD rA rB : Reg) (rc : Bool) (s : State) : Result :=
  s.loadForm (.lhaux rD rA rB rc) .load .whole (s.eaX rA rB) 2 (fun b t => t.writeGpr rD (algebraic b))
    fun t => (t.updateLoad rD rA (s.eaX rA rB)).badRecordBit rc

/-- R522. -/
def execLwz (rD rA : Reg) (d : BitVec 16) (s : State) : Result :=
  s.loadForm (.lwz rD rA d) .load .noBase (s.eaD rA d) 4 (fun b t => t.writeGpr rD (wordOf b)) fun t => t

/-- R523. -/
def execLwzx (rD rA rB : Reg) (rc : Bool) (s : State) : Result :=
  s.loadForm (.lwzx rD rA rB rc) .load .noBase (s.eaX rA rB) 4 (fun b t => t.writeGpr rD (wordOf b))
    fun t => t.badRecordBit rc

/-- R524. -/
def execLwzu (rD rA : Reg) (d : BitVec 16) (s : State) : Result :=
  s.loadForm (.lwzu rD rA d) .load .whole (s.eaD rA d) 4 (fun b t => t.writeGpr rD (wordOf b))
    fun t => t.updateLoad rD rA (s.eaD rA d)

/-- R525. -/
def execLwzux (rD rA rB : Reg) (rc : Bool) (s : State) : Result :=
  s.loadForm (.lwzux rD rA rB rc) .load .whole (s.eaX rA rB) 4 (fun b t => t.writeGpr rD (wordOf b))
    fun t => (t.updateLoad rD rA (s.eaX rA rB)).badRecordBit rc

/-- R530. -/
def execStb (rS rA : Reg) (d : BitVec 16) (s : State) : Result :=
  s.storeForm (.stb rS rA d) .store .noBase (s.eaD rA d) (lowBytes 1 (s.readGpr rS)) fun t => t

/-- R531. -/
def execStbx (rS rA rB : Reg) (rc : Bool) (s : State) : Result :=
  s.storeForm (.stbx rS rA rB rc) .store .noBase (s.eaX rA rB) (lowBytes 1 (s.readGpr rS)) fun t => t.badRecordBit rc

/-- R532: rS = rA stores the old value. -/
def execStbu (rS rA : Reg) (d : BitVec 16) (s : State) : Result :=
  s.storeForm (.stbu rS rA d) .store .whole (s.eaD rA d) (lowBytes 1 (s.readGpr rS)) fun t =>
    t.updateBase rA (s.eaD rA d)

/-- R533. -/
def execStbux (rS rA rB : Reg) (rc : Bool) (s : State) : Result :=
  s.storeForm (.stbux rS rA rB rc) .store .whole (s.eaX rA rB) (lowBytes 1 (s.readGpr rS)) fun t =>
    (t.updateBase rA (s.eaX rA rB)).badRecordBit rc

/-- R534. -/
def execSth (rS rA : Reg) (d : BitVec 16) (s : State) : Result :=
  s.storeForm (.sth rS rA d) .store .noBase (s.eaD rA d) (lowBytes 2 (s.readGpr rS)) fun t => t

/-- R535. -/
def execSthx (rS rA rB : Reg) (rc : Bool) (s : State) : Result :=
  s.storeForm (.sthx rS rA rB rc) .store .noBase (s.eaX rA rB) (lowBytes 2 (s.readGpr rS)) fun t => t.badRecordBit rc

/-- R536: rS = rA stores the old value. -/
def execSthu (rS rA : Reg) (d : BitVec 16) (s : State) : Result :=
  s.storeForm (.sthu rS rA d) .store .whole (s.eaD rA d) (lowBytes 2 (s.readGpr rS)) fun t =>
    t.updateBase rA (s.eaD rA d)

/-- R537. -/
def execSthux (rS rA rB : Reg) (rc : Bool) (s : State) : Result :=
  s.storeForm (.sthux rS rA rB rc) .store .whole (s.eaX rA rB) (lowBytes 2 (s.readGpr rS)) fun t =>
    (t.updateBase rA (s.eaX rA rB)).badRecordBit rc

/-- R538. -/
def execStw (rS rA : Reg) (d : BitVec 16) (s : State) : Result :=
  s.storeForm (.stw rS rA d) .store .noBase (s.eaD rA d) (lowBytes 4 (s.readGpr rS)) fun t => t

/-- R539. -/
def execStwx (rS rA rB : Reg) (rc : Bool) (s : State) : Result :=
  s.storeForm (.stwx rS rA rB rc) .store .noBase (s.eaX rA rB) (lowBytes 4 (s.readGpr rS)) fun t => t.badRecordBit rc

/-- R540: rS = rA stores the old value. -/
def execStwu (rS rA : Reg) (d : BitVec 16) (s : State) : Result :=
  s.storeForm (.stwu rS rA d) .store .whole (s.eaD rA d) (lowBytes 4 (s.readGpr rS)) fun t =>
    t.updateBase rA (s.eaD rA d)

/-- R541. -/
def execStwux (rS rA rB : Reg) (rc : Bool) (s : State) : Result :=
  s.storeForm (.stwux rS rA rB rc) .store .whole (s.eaX rA rB) (lowBytes 4 (s.readGpr rS)) fun t =>
    (t.updateBase rA (s.eaX rA rB)).badRecordBit rc

/-- R546. -/
def execLhbrx (rD rA rB : Reg) (rc : Bool) (s : State) : Result :=
  s.loadForm (.lhbrx rD rA rB rc) .load .noBase (s.eaX rA rB) 2 (fun b t => t.writeGpr rD (wordOf b.reverse))
    fun t => t.badRecordBit rc

/-- R547. -/
def execLwbrx (rD rA rB : Reg) (rc : Bool) (s : State) : Result :=
  s.loadForm (.lwbrx rD rA rB rc) .load .noBase (s.eaX rA rB) 4 (fun b t => t.writeGpr rD (wordOf b.reverse))
    fun t => t.badRecordBit rc

/-- R548. -/
def execSthbrx (rS rA rB : Reg) (rc : Bool) (s : State) : Result :=
  s.storeForm (.sthbrx rS rA rB rc) .store .noBase (s.eaX rA rB) (lowBytes 2 (s.readGpr rS)).reverse fun t =>
    t.badRecordBit rc

/-- R549. -/
def execStwbrx (rS rA rB : Reg) (rc : Bool) (s : State) : Result :=
  s.storeForm (.stwbrx rS rA rB rc) .store .noBase (s.eaX rA rB) (lowBytes 4 (s.readGpr rS)).reverse fun t =>
    t.badRecordBit rc

/-! ### Multiple and string (R550, R555; 92 D18) -/

/-- How many registers hold `n` bytes (R555). -/
def regsFor (n : Nat) : Nat := (n + 3) / 4

/-- The accesses of `n` bytes from `ea` on: one for each register, of up to four bytes (R550, R555). -/
def groups (ea : Word) (n : Nat) : List Part :=
  (List.range (regsFor n)).map fun k => ⟨ea + BitVec.ofNat 32 (4 * k), min 4 (n - 4 * k)⟩

/-- Packs bytes into `k` registers' words, four to a word from the most significant end, zeros in what the last
word lacks (R555). -/
def packWords : Nat → List Byte → List Word
  | 0, _ => []
  | k + 1, bs => wordOf ((bs.take 4) ++ List.replicate (4 - (bs.take 4).length) 0) :: packWords k (bs.drop 4)

/-- Writes registers from `r` on, r31 followed by r0 (R555). -/
def State.writeRegs (s : State) (r : Reg) : List Word → State
  | [] => s
  | v :: t => (s.writeGpr r v).writeRegs (r + 1) t

/-- Makes `k` registers from `r` on undefined. -/
def State.undefineRegs (s : State) (r : Reg) : Nat → State
  | 0 => s
  | k + 1 => (s.undefineGpr r).undefineRegs (r + 1) k

/-- A load of `n` bytes into registers from `rD` on. `bad` is the invalid form whose registers end undefined. A
DSI leaves any prefix of the registers already read written (log entry 12). -/
def State.loadRegs (s : State) (i : Instr) (rD : Reg) (ea : Word) (n : Nat) (bad rc : Bool) : Result :=
  (s.loadOperands .load (groups ea n)).finishWith (encode i) .whole ea
    (fun b t => if bad then t.undefineRegs rD (regsFor n) else t.writeRegs rD (packWords (regsFor n) b))
    (fun t => t.badRecordBit rc)
    (fun b t =>
      let k := t.drawUpTo (b.length / 4)
      k.2.writeRegs rD (packWords k.1 b))

/-- The bytes of registers from `r` on, in order. -/
def State.regBytes (s : State) (r : Reg) (k : Nat) : List Byte :=
  (List.range k).flatMap fun j => lowBytes 4 (s.readGpr (r + BitVec.ofNat 5 j))

/-- A store of `n` bytes from registers from `rS` on. -/
def State.storeRegs (s : State) (i : Instr) (f : AlignForm) (rS : Reg) (ea : Word) (n : Nat) (rc : Bool) : Result :=
  (s.storeOperands .store (groups ea n) ((s.regBytes rS (regsFor n)).take n)).finish (encode i) f ea (fun _ t => t)
    fun t => t.badRecordBit rc

/-- The boundary test of a string (R150 g, R555): an unaligned one may not cross 4 Kbytes, an aligned one may not
cross 256 Mbytes; sums are not wrapped. -/
def stringCrosses (ea : Word) (n : Nat) : Bool :=
  decide (0 < n) &&
    (if wordAligned ea then decide (ea.toNat / 268435456 ≠ (ea.toNat + n - 1) / 268435456)
      else decide (ea.toNat / 4096 ≠ (ea.toNat + n - 1) / 4096))

/-- The string length of the immediate forms (R556). -/
def stringImm (nb : BitVec 5) : Nat := if nb = 0 then 32 else nb.toNat

/-- The string length XER[25:31] (R34). -/
def State.stringCount (s : State) : Nat := (s.xer.extractLsb' 0 7).toNat

/-- R551. -/
def execLmw (rD rA : Reg) (d : BitVec 16) (s : State) : Result :=
  if s.msrLE || !wordAligned (s.eaD rA d) then
    .next (s.takeAlignment (encode (.lmw rD rA d)) .whole (s.eaD rA d))
  else s.loadRegs (.lmw rD rA d) rD (s.eaD rA d) (4 * (32 - rD.toNat)) (decide (rD ≤ rA)) false

/-- R552. -/
def execStmw (rS rA : Reg) (d : BitVec 16) (s : State) : Result :=
  if s.msrLE || !wordAligned (s.eaD rA d) then
    .next (s.takeAlignment (encode (.stmw rS rA d)) .noBase (s.eaD rA d))
  else s.storeRegs (.stmw rS rA d) .noBase rS (s.eaD rA d) (4 * (32 - rS.toNat)) false

/-- R556. -/
def execLswi (rD rA : Reg) (nb : BitVec 5) (rc : Bool) (s : State) : Result :=
  if s.msrLE || stringCrosses (s.eaR rA) (stringImm nb) then
    .next (s.takeAlignment (encode (.lswi rD rA nb rc)) .whole (s.eaR rA))
  else s.loadRegs (.lswi rD rA nb rc) rD (s.eaR rA) (stringImm nb) (inRegRange rD rA (regsFor (stringImm nb))) rc

/-- R557. With no byte to load rD is undefined; rA = rD = 0 is inside the range test. -/
def execLswx (rD rA rB : Reg) (rc : Bool) (s : State) : Result :=
  let n := s.stringCount
  if s.msrLE || stringCrosses (s.eaX rA rB) n then
    .next (s.takeAlignment (encode (.lswx rD rA rB rc)) .whole (s.eaX rA rB))
  else if n = 0 then .next ((s.undefineGpr rD).badRecordBit rc).advance
  else s.loadRegs (.lswx rD rA rB rc) rD (s.eaX rA rB) n
    (inRegRange rD rA (regsFor n) || inRegRange rD rB (regsFor n)) rc

/-- R558. -/
def execStswi (rS rA : Reg) (nb : BitVec 5) (rc : Bool) (s : State) : Result :=
  if s.msrLE || stringCrosses (s.eaR rA) (stringImm nb) then
    .next (s.takeAlignment (encode (.stswi rS rA nb rc)) .noBase (s.eaR rA))
  else s.storeRegs (.stswi rS rA nb rc) .noBase rS (s.eaR rA) (stringImm nb) rc

/-- R559. In little-endian mode it takes the alignment exception also when there is no byte to store (R150, R555; log
entry 42). -/
def execStswx (rS rA rB : Reg) (rc : Bool) (s : State) : Result :=
  if s.msrLE || stringCrosses (s.eaX rA rB) s.stringCount then
    .next (s.takeAlignment (encode (.stswx rS rA rB rc)) .noBase (s.eaX rA rB))
  else s.storeRegs (.stswx rS rA rB rc) .noBase rS (s.eaX rA rB) s.stringCount rc

end Sys2Proof.Machine
end

