-- ==== Sys2Proof/Machine/FloatMem.lean ====
section
/-! DEFINITION. Machine/FloatMem.lean: floating-point loads and stores (42_loadstore.md R565 to R588). -/

namespace Sys2Proof.Machine

/-- A floating-point load of `n` bytes: FP must be on and EA word-aligned (R565). -/
def State.fpLoadForm (s : State) (i : Instr) (f : AlignForm) (ea : Word) (n : Nat)
    (put : List Byte → State → State) (rest : State → State) : Result :=
  s.needFp (if wordAligned ea then s.loadForm i .fpLoad f ea n put rest else .next (s.takeAlignment (encode i) f ea))

/-- A floating-point store (R565). -/
def State.fpStoreForm (s : State) (i : Instr) (f : AlignForm) (ea : Word) (bs : List Byte)
    (rest : State → State) : Result :=
  s.needFp (if wordAligned ea then s.storeForm i .fpStore f ea bs rest else .next (s.takeAlignment (encode i) f ea))

/-- Stores the word `SINGLE(FPR[frS])`, with its undefined bits free (R471; log entry 27). -/
def State.fpStoreSingle (s : State) (i : Instr) (f : AlignForm) (ea : Word) (frS : Reg) (rest : State → State) :
    Result :=
  s.fpStoreForm i f ea (lowBytes 4 (singleOf (s.readFpr frS) (Config.stfsFree (s.readFpr frS)))) rest

/-- The double word of eight bytes. -/
def doubleBytes (bs : List Byte) : Dword := BitVec.ofNat 64 (natOfBytes bs)

/-- R566. -/
def execLfs (frD rA : Reg) (d : BitVec 16) (s : State) : Result :=
  s.fpLoadForm (.lfs frD rA d) .noBase (s.eaD rA d) 4 (fun b t => t.putFpr true frD (doubleOf (wordOf b))) fun t => t

/-- R567. -/
def execLfsx (frD rA rB : Reg) (rc : Bool) (s : State) : Result :=
  s.fpLoadForm (.lfsx frD rA rB rc) .noBase (s.eaX rA rB) 4 (fun b t => t.putFpr true frD (doubleOf (wordOf b)))
    fun t => t.badRecordBit rc

/-- R568. -/
def execLfsu (frD rA : Reg) (d : BitVec 16) (s : State) : Result :=
  s.fpLoadForm (.lfsu frD rA d) .whole (s.eaD rA d) 4 (fun b t => t.putFpr true frD (doubleOf (wordOf b)))
    fun t => t.updateBase rA (s.eaD rA d)

/-- R569. -/
def execLfsux (frD rA rB : Reg) (rc : Bool) (s : State) : Result :=
  s.fpLoadForm (.lfsux frD rA rB rc) .whole (s.eaX rA rB) 4 (fun b t => t.putFpr true frD (doubleOf (wordOf b)))
    fun t => (t.updateBase rA (s.eaX rA rB)).badRecordBit rc

/-- R570. -/
def execLfd (frD rA : Reg) (d : BitVec 16) (s : State) : Result :=
  s.fpLoadForm (.lfd frD rA d) .noBase (s.eaD rA d) 8 (fun b t => t.writeFpr frD (doubleBytes b)) fun t => t

/-- R571. -/
def execLfdx (frD rA rB : Reg) (rc : Bool) (s : State) : Result :=
  s.fpLoadForm (.lfdx frD rA rB rc) .noBase (s.eaX rA rB) 8 (fun b t => t.writeFpr frD (doubleBytes b))
    fun t => t.badRecordBit rc

/-- R572. -/
def execLfdu (frD rA : Reg) (d : BitVec 16) (s : State) : Result :=
  s.fpLoadForm (.lfdu frD rA d) .whole (s.eaD rA d) 8 (fun b t => t.writeFpr frD (doubleBytes b))
    fun t => t.updateBase rA (s.eaD rA d)

/-- R573. -/
def execLfdux (frD rA rB : Reg) (rc : Bool) (s : State) : Result :=
  s.fpLoadForm (.lfdux frD rA rB rc) .whole (s.eaX rA rB) 8 (fun b t => t.writeFpr frD (doubleBytes b))
    fun t => (t.updateBase rA (s.eaX rA rB)).badRecordBit rc

/-- R580. -/
def execStfs (frS rA : Reg) (d : BitVec 16) (s : State) : Result :=
  s.fpStoreSingle (.stfs frS rA d) .noBase (s.eaD rA d) frS fun t => t

/-- R581. -/
def execStfsx (frS rA rB : Reg) (rc : Bool) (s : State) : Result :=
  s.fpStoreSingle (.stfsx frS rA rB rc) .noBase (s.eaX rA rB) frS fun t =>
    t.badRecordBit rc

/-- R582. -/
def execStfsu (frS rA : Reg) (d : BitVec 16) (s : State) : Result :=
  s.fpStoreSingle (.stfsu frS rA d) .whole (s.eaD rA d) frS fun t =>
    t.updateBase rA (s.eaD rA d)

/-- R583. -/
def execStfsux (frS rA rB : Reg) (rc : Bool) (s : State) : Result :=
  s.fpStoreSingle (.stfsux frS rA rB rc) .whole (s.eaX rA rB) frS fun t =>
    (t.updateBase rA (s.eaX rA rB)).badRecordBit rc

/-- R584. -/
def execStfd (frS rA : Reg) (d : BitVec 16) (s : State) : Result :=
  s.fpStoreForm (.stfd frS rA d) .noBase (s.eaD rA d) (bytesOfNat 8 (s.readFpr frS).toNat) fun t => t

/-- R585. -/
def execStfdx (frS rA rB : Reg) (rc : Bool) (s : State) : Result :=
  s.fpStoreForm (.stfdx frS rA rB rc) .noBase (s.eaX rA rB) (bytesOfNat 8 (s.readFpr frS).toNat) fun t =>
    t.badRecordBit rc

/-- R586. -/
def execStfdu (frS rA : Reg) (d : BitVec 16) (s : State) : Result :=
  s.fpStoreForm (.stfdu frS rA d) .whole (s.eaD rA d) (bytesOfNat 8 (s.readFpr frS).toNat) fun t =>
    t.updateBase rA (s.eaD rA d)

/-- R587. -/
def execStfdux (frS rA rB : Reg) (rc : Bool) (s : State) : Result :=
  s.fpStoreForm (.stfdux frS rA rB rc) .whole (s.eaX rA rB) (bytesOfNat 8 (s.readFpr frS).toNat) fun t =>
    (t.updateBase rA (s.eaX rA rB)).badRecordBit rc

/-- The word `stfiwx` stores: the low word, or a free one if a single-precision operation wrote the register last (R473,
93 U3; log entry 53). -/
def State.integerWord (s : State) (frS : Reg) : Word :=
  if s.fprIsSingle frS then s.drawWord.1 else (s.readFpr frS).extractLsb' 0 32

/-- R588: the word, unconverted. -/
def execStfiwx (frS rA rB : Reg) (rc : Bool) (s : State) : Result :=
  s.fpStoreForm (.stfiwx frS rA rB rc) .noBase (s.eaX rA rB) (lowBytes 4 (s.integerWord frS)) fun t =>
    (if s.fprIsSingle frS then t.drawWord.2 else t).badRecordBit rc

end Sys2Proof.Machine
end

