-- ==== Sys2Proof/Machine/Integer.lean ====
section
/-! DEFINITION. Machine/Integer.lean: the integer instructions (40_integer.md R322 to R393). A meaning reads its
operands before it writes anything. -/

namespace Sys2Proof.Machine

/-- Writes a result, records it if asked to, and goes on (R320, R321). -/
def State.putResult (s : State) (r : Reg) (v : Word) (rc : Bool) : Result :=
  .next ((s.writeGpr r v).recordIf rc v).advance

/-- An addition `a + b + c` with its flags: `carries` says that CA is written (R321). -/
def State.putSum (s : State) (rD : Reg) (a b : Word) (c carries oe rc : Bool) : Result :=
  let t := sum33 a b c
  let v : Word := t.setWidth 32
  let s1 := if carries then s.setCa (t.getMsbD 0) else s
  (s1.overflowIf oe (addOverflow a b v)).putResult rD v rc

/-- The 64-bit signed product (R338 to R340). -/
def mulSigned (a b : Word) : Dword := a.signExtend 64 * b.signExtend 64

/-- The 64-bit unsigned product (R341). -/
def mulUnsigned (a b : Word) : Dword := a.setWidth 64 * b.setWidth 64

/-- A division whose quotient is undefined: the quotient and LT, GT, EQ are free values of the operands, OV is
set if OE = 1 and CR0[3] copies SO (R342, R343; log entry 39). -/
def State.putUndefinedQuotient (s : State) (rD : Reg) (q : Word) (c : BitVec 3) (oe rc : Bool) : Result :=
  let s1 := (s.overflowIf oe true).writeGpr rD q
  .next (if rc then s1.setCrField 0 (c ++ bit1 s1.xerSO) else s1).advance

/-- A quotient that is defined (R342, R343). -/
def State.putQuotient (s : State) (rD : Reg) (q : Word) (oe rc : Bool) : Result :=
  (s.overflowIf oe false).putResult rD q rc

/-- Writes a comparison to a CR field (R350). -/
def State.putCompare (s : State) (crfD : BitVec 3) (c : BitVec 4) : Result :=
  .next (s.setCrField crfD.toNat c).advance

/-- Writes a shifted word and its carry (R392, R393). -/
def State.putAlgebraic (s : State) (rA : Reg) (r : Word × Bool) (rc : Bool) : Result :=
  (s.setCa r.2).putResult rA r.1 rc

/-- R322. -/
def execAddi (rD rA : Reg) (simm : BitVec 16) (s : State) : Result :=
  s.putResult rD (s.baseOrZero rA + sext16 simm) false

/-- R323. -/
def execAddis (rD rA : Reg) (simm : BitVec 16) (s : State) : Result :=
  s.putResult rD (s.baseOrZero rA + highImm simm) false

/-- R326. -/
def execAddic (rD rA : Reg) (simm : BitVec 16) (s : State) : Result :=
  s.putSum rD (s.readGpr rA) (sext16 simm) false true false false

/-- R327. -/
def execAddicRec (rD rA : Reg) (simm : BitVec 16) (s : State) : Result :=
  s.putSum rD (s.readGpr rA) (sext16 simm) false true false true

/-- R328. -/
def execSubfic (rD rA : Reg) (simm : BitVec 16) (s : State) : Result :=
  s.putSum rD (~~~(s.readGpr rA)) (sext16 simm) true true false false

/-- R338. -/
def execMulli (rD rA : Reg) (simm : BitVec 16) (s : State) : Result :=
  s.putResult rD ((mulSigned (s.readGpr rA) (sext16 simm)).setWidth 32) false

/-- R324. -/
def execAdd (rD rA rB : Reg) (oe rc : Bool) (s : State) : Result :=
  s.putSum rD (s.readGpr rA) (s.readGpr rB) false false oe rc

/-- R325. -/
def execSubf (rD rA rB : Reg) (oe rc : Bool) (s : State) : Result :=
  s.putSum rD (~~~(s.readGpr rA)) (s.readGpr rB) true false oe rc

/-- R329. -/
def execAddc (rD rA rB : Reg) (oe rc : Bool) (s : State) : Result :=
  s.putSum rD (s.readGpr rA) (s.readGpr rB) false true oe rc

/-- R330. -/
def execSubfc (rD rA rB : Reg) (oe rc : Bool) (s : State) : Result :=
  s.putSum rD (~~~(s.readGpr rA)) (s.readGpr rB) true true oe rc

/-- R331. -/
def execAdde (rD rA rB : Reg) (oe rc : Bool) (s : State) : Result :=
  s.putSum rD (s.readGpr rA) (s.readGpr rB) s.xerCA true oe rc

/-- R332. -/
def execSubfe (rD rA rB : Reg) (oe rc : Bool) (s : State) : Result :=
  s.putSum rD (~~~(s.readGpr rA)) (s.readGpr rB) s.xerCA true oe rc

/-- R333. -/
def execAddme (rD rA : Reg) (oe rc : Bool) (s : State) : Result :=
  s.putSum rD (s.readGpr rA) 0xFFFFFFFF s.xerCA true oe rc

/-- R334. -/
def execSubfme (rD rA : Reg) (oe rc : Bool) (s : State) : Result :=
  s.putSum rD (~~~(s.readGpr rA)) 0xFFFFFFFF s.xerCA true oe rc

/-- R335. -/
def execAddze (rD rA : Reg) (oe rc : Bool) (s : State) : Result :=
  s.putSum rD (s.readGpr rA) 0 s.xerCA true oe rc

/-- R336. -/
def execSubfze (rD rA : Reg) (oe rc : Bool) (s : State) : Result :=
  s.putSum rD (~~~(s.readGpr rA)) 0 s.xerCA true oe rc

/-- R337. -/
def execNeg (rD rA : Reg) (oe rc : Bool) (s : State) : Result :=
  (s.overflowIf oe (s.readGpr rA == 0x80000000)).putResult rD (~~~(s.readGpr rA) + 1) rc

/-- R339. -/
def execMullw (rD rA rB : Reg) (oe rc : Bool) (s : State) : Result :=
  let p := mulSigned (s.readGpr rA) (s.readGpr rB)
  (s.overflowIf oe (p != (p.setWidth 32).signExtend 64)).putResult rD (p.setWidth 32) rc

/-- R340. -/
def execMulhw (rD rA rB : Reg) (rc : Bool) (s : State) : Result :=
  s.putResult rD ((mulSigned (s.readGpr rA) (s.readGpr rB)).extractLsb' 32 32) rc

/-- R341. -/
def execMulhwu (rD rA rB : Reg) (rc : Bool) (s : State) : Result :=
  s.putResult rD ((mulUnsigned (s.readGpr rA) (s.readGpr rB)).extractLsb' 32 32) rc

/-- R342: truncates toward zero. -/
def execDivw (rD rA rB : Reg) (oe rc : Bool) (s : State) : Result :=
  let a := s.readGpr rA
  let b := s.readGpr rB
  if b = 0 ∨ (a = 0x80000000 ∧ b = 0xFFFFFFFF) then
    s.putUndefinedQuotient rD (Config.divwFree a b) (Config.divwCr0Free a b) oe rc
  else s.putQuotient rD (a.sdiv b) oe rc

/-- R343. -/
def execDivwu (rD rA rB : Reg) (oe rc : Bool) (s : State) : Result :=
  let a := s.readGpr rA
  let b := s.readGpr rB
  if b = 0 then s.putUndefinedQuotient rD (Config.divwuFree a b) (Config.divwuCr0Free a b) oe rc
  else s.putQuotient rD (a / b) oe rc

/-- R351. L = 1 acts as L = 0 (92 D13; log entry 5). -/
def execCmpi (crfD : BitVec 3) (_l : Bool) (rA : Reg) (simm : BitVec 16) (s : State) : Result :=
  s.putCompare crfD (cmpSigned (s.readGpr rA) (sext16 simm) s.xerSO)

/-- R352. L = 1 acts as L = 0 (92 D13; log entry 5). -/
def execCmp (crfD : BitVec 3) (_l : Bool) (rA rB : Reg) (s : State) : Result :=
  s.putCompare crfD (cmpSigned (s.readGpr rA) (s.readGpr rB) s.xerSO)

/-- R353. L = 1 acts as L = 0 (92 D13; log entry 5). -/
def execCmpli (crfD : BitVec 3) (_l : Bool) (rA : Reg) (uimm : BitVec 16) (s : State) : Result :=
  s.putCompare crfD (cmpUnsigned (s.readGpr rA) (zext16 uimm) s.xerSO)

/-- R354. L = 1 acts as L = 0 (92 D13; log entry 5). -/
def execCmpl (crfD : BitVec 3) (_l : Bool) (rA rB : Reg) (s : State) : Result :=
  s.putCompare crfD (cmpUnsigned (s.readGpr rA) (s.readGpr rB) s.xerSO)

/-- R361. -/
def execAndiRec (rS rA : Reg) (uimm : BitVec 16) (s : State) : Result :=
  s.putResult rA (s.readGpr rS &&& zext16 uimm) true

/-- R362. -/
def execAndisRec (rS rA : Reg) (uimm : BitVec 16) (s : State) : Result :=
  s.putResult rA (s.readGpr rS &&& highImm uimm) true

/-- R363. -/
def execOri (rS rA : Reg) (uimm : BitVec 16) (s : State) : Result :=
  s.putResult rA (s.readGpr rS ||| zext16 uimm) false

/-- R364. -/
def execOris (rS rA : Reg) (uimm : BitVec 16) (s : State) : Result :=
  s.putResult rA (s.readGpr rS ||| highImm uimm) false

/-- R365. -/
def execXori (rS rA : Reg) (uimm : BitVec 16) (s : State) : Result :=
  s.putResult rA (s.readGpr rS ^^^ zext16 uimm) false

/-- R366. -/
def execXoris (rS rA : Reg) (uimm : BitVec 16) (s : State) : Result :=
  s.putResult rA (s.readGpr rS ^^^ highImm uimm) false

/-- R367. -/
def execAnd (rS rA rB : Reg) (rc : Bool) (s : State) : Result :=
  s.putResult rA (s.readGpr rS &&& s.readGpr rB) rc

/-- R368. -/
def execOr (rS rA rB : Reg) (rc : Bool) (s : State) : Result :=
  s.putResult rA (s.readGpr rS ||| s.readGpr rB) rc

/-- R369. -/
def execXor (rS rA rB : Reg) (rc : Bool) (s : State) : Result :=
  s.putResult rA (s.readGpr rS ^^^ s.readGpr rB) rc

/-- R370. -/
def execNand (rS rA rB : Reg) (rc : Bool) (s : State) : Result :=
  s.putResult rA (~~~(s.readGpr rS &&& s.readGpr rB)) rc

/-- R371. -/
def execNor (rS rA rB : Reg) (rc : Bool) (s : State) : Result :=
  s.putResult rA (~~~(s.readGpr rS ||| s.readGpr rB)) rc

/-- R372. -/
def execEqv (rS rA rB : Reg) (rc : Bool) (s : State) : Result :=
  s.putResult rA (~~~(s.readGpr rS ^^^ s.readGpr rB)) rc

/-- R373. -/
def execAndc (rS rA rB : Reg) (rc : Bool) (s : State) : Result :=
  s.putResult rA (s.readGpr rS &&& ~~~(s.readGpr rB)) rc

/-- R374. -/
def execOrc (rS rA rB : Reg) (rc : Bool) (s : State) : Result :=
  s.putResult rA (s.readGpr rS ||| ~~~(s.readGpr rB)) rc

/-- R375. -/
def execExtsb (rS rA : Reg) (rc : Bool) (s : State) : Result :=
  s.putResult rA (((s.readGpr rS).setWidth 8).signExtend 32) rc

/-- R376. -/
def execExtsh (rS rA : Reg) (rc : Bool) (s : State) : Result :=
  s.putResult rA (((s.readGpr rS).setWidth 16).signExtend 32) rc

/-- R377. -/
def execCntlzw (rS rA : Reg) (rc : Bool) (s : State) : Result :=
  s.putResult rA (BitVec.ofNat 32 (leadingZeros (s.readGpr rS))) rc

/-- R381. -/
def execRlwinm (rS rA : Reg) (sh mb me : BitVec 5) (rc : Bool) (s : State) : Result :=
  s.putResult rA (rotl32 (s.readGpr rS) sh &&& maskBits mb me) rc

/-- R382. -/
def execRlwnm (rS rA rB : Reg) (mb me : BitVec 5) (rc : Bool) (s : State) : Result :=
  s.putResult rA (rotl32 (s.readGpr rS) ((s.readGpr rB).setWidth 5) &&& maskBits mb me) rc

/-- R383. -/
def execRlwimi (rS rA : Reg) (sh mb me : BitVec 5) (rc : Bool) (s : State) : Result :=
  s.putResult rA ((rotl32 (s.readGpr rS) sh &&& maskBits mb me) ||| (s.readGpr rA &&& ~~~(maskBits mb me))) rc

/-- R390: an amount of 32 to 63 gives 0. -/
def execSlw (rS rA rB : Reg) (rc : Bool) (s : State) : Result :=
  s.putResult rA ((s.readGpr rS) <<< shiftAmount (s.readGpr rB)) rc

/-- R391: an amount of 32 to 63 gives 0. -/
def execSrw (rS rA rB : Reg) (rc : Bool) (s : State) : Result :=
  s.putResult rA ((s.readGpr rS) >>> shiftAmount (s.readGpr rB)) rc

/-- R392. -/
def execSrawi (rS rA : Reg) (sh : BitVec 5) (rc : Bool) (s : State) : Result :=
  s.putAlgebraic rA (shiftAlgebraic (s.readGpr rS) sh.toNat) rc

/-- R393: an amount of 32 to 63 gives 32 copies of the sign. -/
def execSraw (rS rA rB : Reg) (rc : Bool) (s : State) : Result :=
  s.putAlgebraic rA (shiftAlgebraic (s.readGpr rS) (shiftAmount (s.readGpr rB))) rc

end Sys2Proof.Machine
end

