-- ==== Sys2Proof/Machine/Storage.lean ====
section
/-! DEFINITION. Machine/Storage.lean: reservations, synchronization, cache control and external control
(44_system.md R670 to R691). -/

namespace Sys2Proof.Machine

/-- Translates one address for the instruction `i` and goes on with `k`, or for a direct-store segment with
`direct`; a failure is the instruction's exception (R735 steps 6 to 8). -/
def State.withAddress (s : State) (i : Instr) (f : AlignForm) (u : Use) (ea : Word) (direct : State → Result)
    (k : Word → BitVec 4 → State → Result) : Result :=
  match s.translate u ea with
  | (.mapped pa wimg, s1) => k pa wimg s1
  | (.directStore _, s1) => direct s1
  | (.fail x, s1) => (failAcc x u ea [] s1).finish (encode i) f ea (fun _ t => t) fun t => t

/-- The DSI of `lwarx`, `stwcx.`, `eciwx` and `ecowx` to a direct-store segment (R751). -/
def State.takeDirectDsi (s : State) (u : Use) (ea : Word) : State :=
  s.takeDsi (0x04000000 ||| (if u.isStore then 0x02000000 else 0)) ea

/-- The load of `lwarx` in physical memory: a hit announces the reservation on the bus (R186, R194), with the big-endian
address of the word (R136). -/
def State.loadReserved (s : State) (wimg : BitVec 4) (pa : Word) : List Byte × State :=
  let hit := !s.bypassD wimg && (findD s.dcache (blockOf pa)).isSome
  let s1 := if hit then s.logBlockOp .lwarxSet wimg (s.mungeWord pa) else s
  s1.loadPhys wimg .readAtomic (physSpan s1.msrLE pa 4)

/-- R670. -/
def execLwarx (rD rA rB : Reg) (rc : Bool) (s : State) : Result :=
  let ea := s.eaX rA rB
  if wordAligned ea then
    s.withAddress (.lwarx rD rA rB rc) .noBase .lwarx ea (fun t => .next (t.takeDirectDsi .lwarx ea)) fun pa wimg t =>
      let r := t.loadReserved wimg pa
      let t1 := { r.2 with resv := true, resvAddr := blockOf pa }
      .next ((t1.writeGpr rD (wordOf (t1.orderBytes r.1))).badRecordBit rc).advance
  else .next (s.takeAlignment (encode (.lwarx rD rA rB rc)) .noBase ea)

/-- R671: the reserved address is not compared (R182); bit 31 = 0 leaves CR0 undefined. -/
def execStwcxRec (rS rA rB : Reg) (rc : Bool) (s : State) : Result :=
  let ea := s.eaX rA rB
  if wordAligned ea then
    s.withAddress (.stwcxRec rS rA rB rc) .noBase .stwcx ea (fun t => .next (t.takeDirectDsi .stwcx ea))
      fun pa wimg t =>
        let t1 := if t.resv then
            { t.storePart wimg true pa (t.orderBytes (lowBytes 4 (t.readGpr rS))) with resv := false }
          else t
        .next ((t1.setCrField 0 (crBits false false t.resv t.xerSO)).badRecordBit !rc).advance
  else .next (s.takeAlignment (encode (.stwcxRec rS rA rB rc)) .noBase ea)

/-- R672: in a model of one processor that completes each instruction before the next, only the bus sees it (log
entry 35). -/
def execSync (rc : Bool) (s : State) : Result := .next ((s.broadcast .sync 0).badRecordBit rc).advance

/-- R673. -/
def execEieio (s : State) : Result := .next (s.broadcast .eieio 0).advance

/-- R674: nothing is prefetched in this model. -/
def execIsync (s : State) : Result := .next s.advance

/-- A touch (R681): a block of cacheable storage whose translation hits is loaded. One that is a no-op leaves the order
of the TLB and of the cache too. -/
def State.touchAddress (s : State) (ea : Word) : Result :=
  if 1 < (batHits s.mmu.dbat s.msrPR ea).length then .refused .overlappingBats
  else if s.msrDR && batIllegal s.mmu.dbat s.msrPR ea then .refused .illegalBatForm
  else match s.translateTouch ea with
    | none => .next s.advance
    | some (pa, wimg, t) => .next (if s.touches wimg then t.touchBlock wimg pa else s).advance

/-- R681. -/
def execDcbt (rA rB : Reg) (s : State) : Result := s.touchAddress (s.eaX rA rB)

/-- R682. -/
def execDcbtst (rA rB : Reg) (s : State) : Result := s.touchAddress (s.eaX rA rB)

/-- A cache instruction on the block of an address; to a direct-store segment it does nothing (R680). -/
def State.onBlock (s : State) (i : Instr) (u : Use) (ea : Word) (k : BitVec 4 → Word → State → State) :
    Result :=
  s.withAddress i .noFields u ea (fun t => .next t.advance) fun pa wimg t => .next (k wimg pa t).advance

/-- R683. -/
def execDcbz (rA rB : Reg) (s : State) : Result :=
  s.onBlock (.dcbz rA rB) .dcbz (s.eaX rA rB) fun w pa t => t.zeroBlock w pa

/-- R684. -/
def execDcbst (rA rB : Reg) (s : State) : Result :=
  s.onBlock (.dcbst rA rB) .cacheLoad (s.eaX rA rB) fun w pa t => t.storeBlock w pa

/-- R685. -/
def execDcbf (rA rB : Reg) (s : State) : Result :=
  s.onBlock (.dcbf rA rB) .cacheLoad (s.eaX rA rB) fun w pa t => t.flushBlock w pa

/-- R686: the bus operation is unconditional. -/
def execIcbi (rA rB : Reg) (s : State) : Result :=
  s.onBlock (.icbi rA rB) .cacheLoad (s.eaX rA rB) fun w pa t => t.icbiBlock w pa

/-- R687. -/
def execDcbi (rA rB : Reg) (s : State) : Result :=
  s.supervisorOnly (s.onBlock (.dcbi rA rB) .cacheStore (s.eaX rA rB) fun w pa t => t.discardBlock w pa)

/-! ### External control -/

/-- The tests before an external control access: alignment, then EAR[0], then translation (R690, R691). -/
def State.external (s : State) (i : Instr) (u : Use) (ea : Word) (k : Word → State → Result) : Result :=
  if !wordAligned ea then .next (s.takeAlignment (encode i) .noBase ea)
  else if !beBit s.cfg.ear 0 then .next (s.takeDsi (0x00100000 ||| (if u.isStore then 0x02000000 else 0)) ea)
  else s.withAddress i .noBase u ea (fun t => .next (t.takeDirectDsi u ea)) fun pa _ t => k pa t

/-- R690: the device's word is external input, a free value (92 D6; log entry 14). -/
def execEciwx (rD rA rB : Reg) (s : State) : Result :=
  s.external (.eciwx rD rA rB) .eciwx (s.eaX rA rB) fun pa t =>
    let d := t.drawWord
    .next ((d.2.logBus (.externalRead (t.cfg.ear.extractLsb' 0 4) pa)).writeGpr rD d.1).advance

/-- R691: memory is not written. -/
def execEcowx (rS rA rB : Reg) (s : State) : Result :=
  s.external (.ecowx rS rA rB) .ecowx (s.eaX rA rB) fun pa t =>
    .next (t.logBus (.externalWrite (t.cfg.ear.extractLsb' 0 4) pa (t.readGpr rS))).advance

end Sys2Proof.Machine
end

