-- ==== Sys2Proof/Machine/Spr.lean ====
section
/-! DEFINITION. Machine/Spr.lean: the special-purpose registers (44_system.md R660 to R668, 10_state.md R34 to
R60), each read and written under its number. -/

namespace Sys2Proof.Machine

/-- The bits of HID0 that are storage (R56): ICFI and DCFI, bits 20 and 21, read 0. -/
def hid0Mask : Word := 0xF101F186

/-- A BAT register by number from 0, IBAT0U to IBAT3L or DBAT0U to DBAT3L: the pair is `k / 2`. -/
def readBat (a : Vector Bat 4) (k : BitVec 3) : Word :=
  let b : Bat := a[(k.extractLsb' 1 2).toNat]'(k.extractLsb' 1 2).isLt
  if k.getLsbD 0 then b.lower else b.upper

/-- Writes a BAT register: the reserved bits read 0 (R205, R206); `lowerMask` differs, the W bit of an IBAT being
reserved. -/
def writeBat (a : Vector Bat 4) (lowerMask : Word) (k : BitVec 3) (v : Word) : Vector Bat 4 :=
  let i := k.extractLsb' 1 2
  let b : Bat := a[i.toNat]'i.isLt
  a.set i.toNat (if k.getLsbD 0 then { b with lower := v &&& lowerMask } else { b with upper := v &&& 0xFFFE1FFF })
    i.isLt

/-- The bits of a lower IBAT word that are storage. -/
def ibatLowerMask : Word := 0xFFFE003B

/-- The bits of a lower DBAT word that are storage. -/
def dbatLowerMask : Word := 0xFFFE007B

/-- PVR (R41). -/
def pvr : Word := 0x0009#16 ++ Config.pvrRevision

/-- HID1 (R57). -/
def hid1 : Word := Config.pllCfg ++ 0#28

/-- The value a register reads as (R666, R667). SIA and SDA follow execution while MMCR0[ENINT] = 1 and then read
as any value (R846, R847; log entry 36). -/
def State.readSpr (s : State) (n : Nat) : Word × State :=
  match n with
  | 1 => (s.xer, s)
  | 8 => (s.lr, s)
  | 9 => (s.ctr, s)
  | 18 => (s.exc.dsisr, s)
  | 19 => (s.exc.dar, s)
  | 22 => (s.dec, s)
  | 25 => (s.mmu.sdr1, s)
  | 26 => (s.exc.srr0, s)
  | 27 => (s.exc.srr1, s)
  | 272 => (s.exc.sprg0, s)
  | 273 => (s.exc.sprg1, s)
  | 274 => (s.exc.sprg2, s)
  | 275 => (s.exc.sprg3, s)
  | 282 => (s.cfg.ear, s)
  | 287 => (pvr, s)
  | 952 => (s.pm.mmcr0, s)
  | 953 => (s.pm.pmc1, s)
  | 954 => (s.pm.pmc2, s)
  | 955 => if beBit s.pm.mmcr0 5 then s.drawWord else (s.pm.sia, s)
  | 956 => (s.pm.mmcr1, s)
  | 957 => (s.pm.pmc3, s)
  | 958 => (s.pm.pmc4, s)
  | 959 => if beBit s.pm.mmcr0 5 then s.drawWord else (s.pm.sda, s)
  | 1008 => (s.cfg.hid0, s)
  | 1009 => (hid1, s)
  | 1010 => (s.cfg.iabr, s)
  | 1013 => (s.cfg.dabr, s)
  | 1023 => (s.cfg.pir, s)
  | n => (if n < 536 then readBat s.mmu.ibat (BitVec.ofNat 3 n) else readBat s.mmu.dbat (BitVec.ofNat 3 n), s)

/-- A write of HID0: ICFI and DCFI invalidate a whole cache that is enabled, modified data with it (R56; log
entry 49). -/
def State.writeHid0 (s : State) (v : Word) : State :=
  { s with
    cfg := { s.cfg with hid0 := v &&& hid0Mask }
    icache := if beBit v 20 && beBit v 16 then [] else s.icache
    dcache := if beBit v 21 && beBit v 17 then [] else s.dcache }

/-- A write of MMCR0 ends the freeze and the release (R832); if it ends the sampling, SIA and SDA hold values that
are undefined (log entry 36). -/
def State.writeMmcr0 (s : State) (v : Word) : State :=
  let s1 := { s with pm := { s.pm with mmcr0 := v, frozen := false, released := false } }
  if beBit s.pm.mmcr0 5 && !beBit v 5 then
    let a := s1.drawWord
    let d := a.2.drawWord
    { d.2 with pm := { d.2.pm with sia := a.1, sda := d.1 } }
  else s1

/-- A write of DEC: a change of bit 0 from 0 to 1 makes the decrementer condition pending (R805). -/
def State.writeDec (s : State) (v : Word) : State :=
  { s with
    dec := v
    latches := { s.latches with decPending := s.latches.decPending || (!beBit s.dec 0 && beBit v 0) } }

/-- Writes a register (R663 to R665). PVR and HID1 do not change (92 D23; log entry 23); PIR keeps all its bits (92 D3,
log entry 8). -/
def State.writeSpr (s : State) (n : Nat) (v : Word) : State :=
  match n with
  | 1 => { s with xer := v &&& 0xE000007F }
  | 8 => { s with lr := v }
  | 9 => { s with ctr := v }
  | 18 => { s with exc := { s.exc with dsisr := v } }
  | 19 => { s with exc := { s.exc with dar := v } }
  | 22 => s.writeDec v
  | 25 => { s with mmu := { s.mmu with sdr1 := v &&& 0xFFFF01FF } }
  | 26 => { s with exc := { s.exc with srr0 := v } }
  | 27 => { s with exc := { s.exc with srr1 := v } }
  | 272 => { s with exc := { s.exc with sprg0 := v } }
  | 273 => { s with exc := { s.exc with sprg1 := v } }
  | 274 => { s with exc := { s.exc with sprg2 := v } }
  | 275 => { s with exc := { s.exc with sprg3 := v } }
  | 282 => { s with cfg := { s.cfg with ear := v &&& 0x8000003F } }
  | 284 => { s with tb := s.tb.extractLsb' 32 32 ++ v }
  | 285 => { s with tb := v ++ s.tb.extractLsb' 0 32 }
  | 287 => s
  | 952 => s.writeMmcr0 v
  | 953 => { s with pm := { s.pm with pmc1 := v } }
  | 954 => { s with pm := { s.pm with pmc2 := v } }
  | 955 => { s with pm := { s.pm with sia := v } }
  | 956 => { s with pm := { s.pm with mmcr1 := v &&& 0xFFC00000 } }
  | 957 => { s with pm := { s.pm with pmc3 := v } }
  | 958 => { s with pm := { s.pm with pmc4 := v } }
  | 959 => { s with pm := { s.pm with sda := v } }
  | 1008 => s.writeHid0 v
  | 1009 => s
  | 1010 => { s with cfg := { s.cfg with iabr := v } }
  | 1013 => { s with cfg := { s.cfg with dabr := v } }
  | 1023 => { s with cfg := { s.cfg with pir := v } }
  | n =>
    if n < 536 then { s with mmu := { s.mmu with ibat := writeBat s.mmu.ibat ibatLowerMask (BitVec.ofNat 3 n) v } }
    else { s with mmu := { s.mmu with dbat := writeBat s.mmu.dbat dbatLowerMask (BitVec.ofNat 3 n) v } }

/-- The test of an SPR number (R662): bit 11 of the instruction has the weight 16 in the number. -/
def State.checkSpr (s : State) (spr : BitVec 10) (defined : Bool) (k : Result) : Result :=
  if s.msrPR && spr.getLsbD 4 then .next s.takePrivileged
  else if defined then k else .next s.takeIllegal

/-- The physical address the instruction at `ea` is fetched from, if it can be fetched (R142, R258). -/
def State.fetchAddr (s : State) (ea : Word) : Option Word :=
  match s.translate .fetch ea with
  | (.mapped pa _, _) => some (s.mungeWord pa)
  | (.directStore _, _) => none
  | (.fail _, _) => none

/-- Whether the new state fetches the instruction at `ea` from another physical address than the old one, can fetch it
with instruction translation only off, or has the other byte order: an implicit branch (R235, R917; log entry 18). -/
def implicitBranch (s t : State) (ea : Word) : Bool :=
  s.msrLE != t.msrLE || match s.fetchAddr ea, t.fetchAddr ea with
  | some a, some b => a != b
  | some _, none => !s.msrIR && t.msrIR
  | none, _ => s.msrIR && !t.msrIR

/-- The registers whose write can move the instruction stream: SDR1, the IBATs (R235, R917), and HID0, which can discard
a cached copy of the page table. -/
def movesFetch (n : Nat) : Bool := n == 25 || n == 1008 || (decide (528 ≤ n) && decide (n ≤ 535))

/-- R663. -/
def execMtspr (rS : Reg) (spr : BitVec 10) (rc : Bool) (s : State) : Result :=
  s.checkSpr spr (writableSprs.contains spr.toNat)
    (.next ((s.writeSpr spr.toNat (s.readGpr rS)).badRecordBit rc).advance)

/-- R666. -/
def execMfspr (rD : Reg) (spr : BitVec 10) (rc : Bool) (s : State) : Result :=
  let r := s.readSpr spr.toNat
  s.checkSpr spr (readableSprs.contains spr.toNat) (.next ((r.2.writeGpr rD r.1).badRecordBit rc).advance)

/-- R668; another number is illegal (92 D22; log entry 23). -/
def execMftb (rD : Reg) (tbr : BitVec 10) (s : State) : Result :=
  if tbr = 268 then .next (s.writeGpr rD (s.tb.extractLsb' 0 32)).advance
  else if tbr = 269 then .next (s.writeGpr rD (s.tb.extractLsb' 32 32)).advance
  else .next s.takeIllegal

end Sys2Proof.Machine
end

