-- ==== Sys2Proof/Machine/System.lean ====
section
/-! DEFINITION. Machine/System.lean: system linkage, MSR, CR and segment register moves, TLB management
(44_system.md R654 to R661, R695 to R701). -/

namespace Sys2Proof.Machine

/-- R654. -/
def execSc (s : State) : Result := .next s.takeSystemCall

/-- R655; then the enabled-exception test (R770). -/
def execRfi (s : State) : Result := s.supervisorOnly (.next s.returnFromException.recheckFp)

/-- R656; then the enabled-exception test (R770). -/
def execMtmsr (rS : Reg) (s : State) : Result :=
  s.supervisorOnly (.next { s with msr := s.readGpr rS &&& msrMask }.advance.recheckFp)

/-- R657. -/
def execMfmsr (rD : Reg) (s : State) : Result := s.supervisorOnly (.next (s.writeGpr rD s.msr).advance)

/-- R658. -/
def execMtcrf (rS : Reg) (crm : BitVec 8) (s : State) : Result :=
  .next { s with cr := (s.readGpr rS &&& fieldMask crm) ||| (s.cr &&& ~~~(fieldMask crm)) }.advance

/-- R659: the field gets SO, OV, CA and 0, and they are cleared. -/
def execMcrxr (crfD : BitVec 3) (s : State) : Result :=
  .next { s.setCrField crfD.toNat (getField4 s.xer 0) with xer := s.xer &&& 0x0FFFFFFF }.advance

/-- R661. -/
def execMfcr (rD : Reg) (s : State) : Result := .next (s.writeGpr rD s.cr).advance

/-- Writes a segment register and goes on (R696, R697). -/
def State.putSr (s : State) (n : BitVec 4) (v : Word) : Result :=
  s.supervisorOnly (.next (s.writeSr n v).advance)

/-- Reads a segment register (R698, R699). -/
def State.getSr (s : State) (rD : Reg) (n : BitVec 4) : Result :=
  s.supervisorOnly (.next (s.writeGpr rD (s.readSr n)).advance)

/-- R696. -/
def execMtsr (rS : Reg) (sr : BitVec 4) (s : State) : Result := s.putSr sr (s.readGpr rS)

/-- R697. -/
def execMtsrin (rS rB : Reg) (s : State) : Result := s.putSr ((s.readGpr rB).extractLsb' 28 4) (s.readGpr rS)

/-- R698. -/
def execMfsr (rD : Reg) (sr : BitVec 4) (s : State) : Result := s.getSr rD sr

/-- R699. -/
def execMfsrin (rD rB : Reg) (s : State) : Result := s.getSr rD ((s.readGpr rB).extractLsb' 28 4)

/-- R700: the operation on the bus carries GPR[rB][12:19] (R246). -/
def execTlbie (rB : Reg) (s : State) : Result :=
  let ea := s.readGpr rB
  s.supervisorOnly (.next ((s.invalidateTlb (tlbIndex ea)).broadcast .tlbInvalidate (ea &&& 0x000FF000)).advance)

/-- R701. -/
def execTlbsync (s : State) : Result := s.supervisorOnly (.next (s.broadcast .tlbSync 0).advance)

end Sys2Proof.Machine
end

