-- ==== Sys2Proof/Machine/Trace.lean ====
section
/-! DEFINITION. Machine/Trace.lean: which instructions complete with a trace exception and what SRR1 says of them
(60_exceptions.md R774, R775). -/

namespace Sys2Proof.Machine

/-- SRR1[3]: a load. -/
def traceLoad : Word := 0x10000000

/-- SRR1[4]: a store. -/
def traceStore : Word := 0x08000000

/-- SRR1[10]: `lswx` or `stswx`. -/
def traceString : Word := 0x00200000

/-- SRR1[11]: a write of SDR1, EAR, HID0, PIR, a BAT or a segment register. -/
def traceMmu : Word := 0x00100000

/-- SRR1[12]: a taken branch. -/
def traceTaken (b : Bool) : Word := if b then 0x00080000 else 0

/-- The SPRs whose write SRR1[11] marks. -/
def traceSpr (n : Nat) : Word :=
  if n = 25 ∨ n = 282 ∨ n = 1008 ∨ n = 1023 ∨ (528 ≤ n ∧ n ≤ 543) then traceMmu else 0

/-- What an instruction is to the trace facility: whether it is a branch (R775 c), and its type bits. -/
def traceKind (s : State) : Instr → Bool × Word
  | .addi _ _ _ => (false, 0)
  | .addis _ _ _ => (false, 0)
  | .addic _ _ _ => (false, 0)
  | .addicRec _ _ _ => (false, 0)
  | .subfic _ _ _ => (false, 0)
  | .mulli _ _ _ => (false, 0)
  | .add _ _ _ _ _ => (false, 0)
  | .subf _ _ _ _ _ => (false, 0)
  | .addc _ _ _ _ _ => (false, 0)
  | .subfc _ _ _ _ _ => (false, 0)
  | .adde _ _ _ _ _ => (false, 0)
  | .subfe _ _ _ _ _ => (false, 0)
  | .addme _ _ _ _ => (false, 0)
  | .subfme _ _ _ _ => (false, 0)
  | .addze _ _ _ _ => (false, 0)
  | .subfze _ _ _ _ => (false, 0)
  | .neg _ _ _ _ => (false, 0)
  | .mullw _ _ _ _ _ => (false, 0)
  | .mulhw _ _ _ _ => (false, 0)
  | .mulhwu _ _ _ _ => (false, 0)
  | .divw _ _ _ _ _ => (false, 0)
  | .divwu _ _ _ _ _ => (false, 0)
  | .cmpi _ _ _ _ => (false, 0)
  | .cmp _ _ _ _ => (false, 0)
  | .cmpli _ _ _ _ => (false, 0)
  | .cmpl _ _ _ _ => (false, 0)
  | .andiRec _ _ _ => (false, 0)
  | .andisRec _ _ _ => (false, 0)
  | .ori _ _ _ => (false, 0)
  | .oris _ _ _ => (false, 0)
  | .xori _ _ _ => (false, 0)
  | .xoris _ _ _ => (false, 0)
  | .and _ _ _ _ => (false, 0)
  | .or _ _ _ _ => (false, 0)
  | .xor _ _ _ _ => (false, 0)
  | .nand _ _ _ _ => (false, 0)
  | .nor _ _ _ _ => (false, 0)
  | .eqv _ _ _ _ => (false, 0)
  | .andc _ _ _ _ => (false, 0)
  | .orc _ _ _ _ => (false, 0)
  | .extsb _ _ _ => (false, 0)
  | .extsh _ _ _ => (false, 0)
  | .cntlzw _ _ _ => (false, 0)
  | .rlwinm _ _ _ _ _ _ => (false, 0)
  | .rlwnm _ _ _ _ _ _ => (false, 0)
  | .rlwimi _ _ _ _ _ _ => (false, 0)
  | .slw _ _ _ _ => (false, 0)
  | .srw _ _ _ _ => (false, 0)
  | .srawi _ _ _ _ => (false, 0)
  | .sraw _ _ _ _ => (false, 0)
  | .fadd _ _ _ _ => (false, 0)
  | .fadds _ _ _ _ => (false, 0)
  | .fsub _ _ _ _ => (false, 0)
  | .fsubs _ _ _ _ => (false, 0)
  | .fmul _ _ _ _ => (false, 0)
  | .fmuls _ _ _ _ => (false, 0)
  | .fdiv _ _ _ _ => (false, 0)
  | .fdivs _ _ _ _ => (false, 0)
  | .fres _ _ _ => (false, 0)
  | .frsqrte _ _ _ => (false, 0)
  | .fsel _ _ _ _ _ => (false, 0)
  | .fmadd _ _ _ _ _ => (false, 0)
  | .fmadds _ _ _ _ _ => (false, 0)
  | .fmsub _ _ _ _ _ => (false, 0)
  | .fmsubs _ _ _ _ _ => (false, 0)
  | .fnmadd _ _ _ _ _ => (false, 0)
  | .fnmadds _ _ _ _ _ => (false, 0)
  | .fnmsub _ _ _ _ _ => (false, 0)
  | .fnmsubs _ _ _ _ _ => (false, 0)
  | .frsp _ _ _ => (false, 0)
  | .fctiw _ _ _ => (false, 0)
  | .fctiwz _ _ _ => (false, 0)
  | .fcmpu _ _ _ _ => (false, 0)
  | .fcmpo _ _ _ _ => (false, 0)
  | .mffs _ _ => (false, 0)
  | .mcrfs _ _ => (false, 0)
  | .mtfsfi _ _ _ => (false, 0)
  | .mtfsf _ _ _ => (false, 0)
  | .mtfsb0 _ _ => (false, 0)
  | .mtfsb1 _ _ => (false, 0)
  | .fmr _ _ _ => (false, 0)
  | .fneg _ _ _ => (false, 0)
  | .fabs _ _ _ => (false, 0)
  | .fnabs _ _ _ => (false, 0)
  | .lbz _ _ _ => (false, traceLoad)
  | .lbzx _ _ _ _ => (false, traceLoad)
  | .lbzu _ _ _ => (false, traceLoad)
  | .lbzux _ _ _ _ => (false, traceLoad)
  | .lhz _ _ _ => (false, traceLoad)
  | .lhzx _ _ _ _ => (false, traceLoad)
  | .lhzu _ _ _ => (false, traceLoad)
  | .lhzux _ _ _ _ => (false, traceLoad)
  | .lha _ _ _ => (false, traceLoad)
  | .lhax _ _ _ _ => (false, traceLoad)
  | .lhau _ _ _ => (false, traceLoad)
  | .lhaux _ _ _ _ => (false, traceLoad)
  | .lwz _ _ _ => (false, traceLoad)
  | .lwzx _ _ _ _ => (false, traceLoad)
  | .lwzu _ _ _ => (false, traceLoad)
  | .lwzux _ _ _ _ => (false, traceLoad)
  | .stb _ _ _ => (false, traceStore)
  | .stbx _ _ _ _ => (false, traceStore)
  | .stbu _ _ _ => (false, traceStore)
  | .stbux _ _ _ _ => (false, traceStore)
  | .sth _ _ _ => (false, traceStore)
  | .sthx _ _ _ _ => (false, traceStore)
  | .sthu _ _ _ => (false, traceStore)
  | .sthux _ _ _ _ => (false, traceStore)
  | .stw _ _ _ => (false, traceStore)
  | .stwx _ _ _ _ => (false, traceStore)
  | .stwu _ _ _ => (false, traceStore)
  | .stwux _ _ _ _ => (false, traceStore)
  | .lhbrx _ _ _ _ => (false, traceLoad)
  | .lwbrx _ _ _ _ => (false, traceLoad)
  | .sthbrx _ _ _ _ => (false, traceStore)
  | .stwbrx _ _ _ _ => (false, traceStore)
  | .lmw _ _ _ => (false, traceLoad)
  | .stmw _ _ _ => (false, traceStore)
  | .lswi _ _ _ _ => (false, traceLoad)
  | .lswx _ _ _ _ => (false, traceLoad ||| traceString)
  | .stswi _ _ _ _ => (false, traceStore)
  | .stswx _ _ _ _ => (false, traceStore ||| traceString)
  | .lfs _ _ _ => (false, traceLoad)
  | .lfsx _ _ _ _ => (false, traceLoad)
  | .lfsu _ _ _ => (false, traceLoad)
  | .lfsux _ _ _ _ => (false, traceLoad)
  | .lfd _ _ _ => (false, traceLoad)
  | .lfdx _ _ _ _ => (false, traceLoad)
  | .lfdu _ _ _ => (false, traceLoad)
  | .lfdux _ _ _ _ => (false, traceLoad)
  | .stfs _ _ _ => (false, traceStore)
  | .stfsx _ _ _ _ => (false, traceStore)
  | .stfsu _ _ _ => (false, traceStore)
  | .stfsux _ _ _ _ => (false, traceStore)
  | .stfd _ _ _ => (false, traceStore)
  | .stfdx _ _ _ _ => (false, traceStore)
  | .stfdu _ _ _ => (false, traceStore)
  | .stfdux _ _ _ _ => (false, traceStore)
  | .stfiwx _ _ _ _ => (false, traceStore)
  | .b _ _ _ => (true, traceTaken true)
  | .bc bo bi _ _ _ => (true, traceTaken (s.branchTaken bo bi))
  | .bclr bo bi _ => (true, traceTaken (s.branchTaken bo bi))
  | .bcctr bo bi _ => (true, traceTaken (s.branchTaken bo bi))
  | .crand _ _ _ => (false, 0)
  | .cror _ _ _ => (false, 0)
  | .crxor _ _ _ => (false, 0)
  | .crnand _ _ _ => (false, 0)
  | .crnor _ _ _ => (false, 0)
  | .creqv _ _ _ => (false, 0)
  | .crandc _ _ _ => (false, 0)
  | .crorc _ _ _ => (false, 0)
  | .mcrf _ _ => (false, 0)
  | .twi _ _ _ => (false, 0)
  | .tw _ _ _ => (false, 0)
  | .sc => (false, 0)
  | .rfi => (false, 0)
  | .mtmsr _ => (false, 0)
  | .mfmsr _ => (false, 0)
  | .mtcrf _ _ => (false, 0)
  | .mcrxr _ => (false, 0)
  | .mfcr _ => (false, 0)
  | .mtspr _ spr _ => (false, traceSpr spr.toNat)
  | .mfspr _ _ _ => (false, 0)
  | .mftb _ _ => (false, 0)
  | .lwarx _ _ _ _ => (false, traceLoad)
  | .stwcxRec _ _ _ _ => (false, traceStore)
  | .sync _ => (false, 0)
  | .eieio => (false, 0)
  | .isync => (false, 0)
  | .dcbt _ _ => (false, 0)
  | .dcbtst _ _ => (false, 0)
  | .dcbz _ _ => (false, traceStore)
  | .dcbst _ _ => (false, 0)
  | .dcbf _ _ => (false, 0)
  | .icbi _ _ => (false, 0)
  | .dcbi _ _ => (false, 0)
  | .eciwx _ _ _ => (false, traceLoad)
  | .ecowx _ _ _ => (false, traceStore)
  | .mtsr _ _ => (false, traceMmu)
  | .mtsrin _ _ => (false, traceMmu)
  | .mfsr _ _ => (false, 0)
  | .mfsrin _ _ => (false, 0)
  | .tlbie _ => (false, 0)
  | .tlbsync => (false, 0)

/-- `rfi` is never traced (R774). -/
def isRfi (i : Instr) : Bool := i == .rfi

/-- The trace exception is taken after this instruction: SE or BE as they were before it (R774, R775). -/
def traced (before : State) (i : Instr) : Bool :=
  (before.msrSE && !isRfi i) || (before.msrBE && (traceKind before i).1)

/-- The instruction completes although the state it leaves has taken an exception: `sc` (R772), and `mtmsr` and `rfi`
in supervisor mode with the floating-point enabled exception of the state they restore (R770). A direct-store error and
the floating-point enabled exception of a floating-point instruction note it themselves (`State.takeDirectError`,
`State.fpDone`). -/
def completesAnyway (before : State) (i : Instr) : Bool :=
  match i with
  | .sc => true
  | .mtmsr _ | .rfi => !before.msrPR
  | _ => false

/-- The end of an instruction that started in `before` and left `t`: it has completed unless it took an exception;
then it may be traced (R735 step 10). Its address is kept for SIA (R846). -/
def State.complete (t before : State) (i : Instr) : State :=
  if t.took then (if completesAnyway before i then { t with lastIa := before.pc } else t)
  else
    let t1 := { t with lastIa := before.pc }
    if traced before i then t1.takeException 0x00D00 t1.pc (0x40000000 ||| (traceKind before i).2) else t1

end Sys2Proof.Machine
end

