-- ==== Sys2Proof/Machine/Run.lean ====
section
/-! DEFINITION. Machine/Run.lean: fetching and running one instruction (20_memory.md R142, 60_exceptions.md R735). -/

namespace Sys2Proof.Machine

/-- The instruction address breakpoint (R790). -/
def State.iabrMatch (s : State) : Bool :=
  beBit s.cfg.iabr 30 && s.cfg.iabr.extractLsb' 2 30 == s.pc.extractLsb' 2 30 && beBit s.cfg.iabr 31 == s.msrIR

/-- The instruction can change what the page table holds: it stores, or discards a block (R235). -/
def altersStorage (s : State) (i : Instr) : Bool :=
  (traceKind s i).2 &&& traceStore != 0 || (match i with
    | .dcbi _ _ => true
    | _ => false)

/-- The instruction can change the address from which the running code is fetched: it writes MSR, SDR1, an IBAT, HID0 or
a segment register, invalidates TLB entries, or with MSR[IR] = 1 changes storage (R235, R917; log entry 18). -/
def altersStream (s : State) (i : Instr) : Bool :=
  (s.msrIR && altersStorage s i) || (match i with
    | .mtmsr _ => true
    | .mtspr _ spr _ => movesFetch spr.toNat
    | .mtsr _ _ => true
    | .mtsrin _ _ => true
    | .tlbie _ => true
    | _ => false)

/-- Notes whether the instruction that led from `before` to `t` was an implicit branch. One that took an exception was
not: that is a real branch (R917; log entry 18). -/
def State.noteMoved (t before : State) (i : Instr) : State :=
  { t with moved := !t.took && altersStream before i && implicitBranch before t t.pc }

/-- What comes of an instruction's meaning once it has ended (R735 step 10). -/
def finishInstr (before : State) (i : Instr) (r : Result) : Result :=
  match r with
  | .next t => .next ((t.noteMoved before i).complete before i)
  | .fault f => .fault f
  | .refused x => .refused x

/-- Runs an instruction: its meaning on the state in which no exception has been taken yet, then the trace. -/
def State.runInstr (s : State) (i : Instr) : Result :=
  finishInstr s i (exec i { s with took := false })

/-- Decodes and runs the instruction word that was fetched (R735 steps 2 and 3). -/
def State.runWord (s : State) (w : Word) : Result :=
  match decode w with
  | .error _ => .next s.takeIllegal
  | .ok i => s.runInstr i

/-- Reads the word at a translated address, after the breakpoint test, and runs it (R142). If an access of the fetch
was answered with TEA there is no word to run, and the machine check of the next boundary follows (log entry 4). -/
def State.fetchWord (s : State) (pa : Word) (wimg : BitVec 4) : Result :=
  if s.iabrMatch then .next (s.takeException 0x01300 s.pc 0)
  else
    let r := s.fetchPhys wimg (s.mungeWord pa)
    if r.2.tea then .next r.2 else r.2.runWord (BitVec.ofNat 32 (natOfBytes r.1))

/-- Fetches and runs the instruction at pc (R142, R735 step 1, R755). -/
def State.fetchAndRun (s : State) : Result :=
  match s.translate .fetch s.pc with
  | (.mapped pa wimg, s1) => s1.fetchWord pa wimg
  | (.directStore _, s1) => .next (s1.takeIsi 0x10000000)
  | (.fail (.refused x), _) => .refused x
  | (.fail .pageFault, s1) => .next (s1.takeIsi XFault.pageFault.isiInfo)
  | (.fail .protection, s1) => .next (s1.takeIsi XFault.protection.isiInfo)
  | (.fail .noExecute, s1) => .next (s1.takeIsi XFault.noExecute.isiInfo)
  | (.fail .writeThrough, s1) => .next (s1.takeIsi XFault.writeThrough.isiInfo)
  | (.fail .breakpoint, s1) => .next (s1.takeIsi XFault.breakpoint.isiInfo)
  | (.fail .alignment, s1) => .next (s1.takeIsi XFault.alignment.isiInfo)

/-- One step: the boundary, and unless that was all, one instruction. A processor in checkstop with no input left
is stuck (R747; log entry 19). After an implicit branch no instruction is fetched: "The model refuses to continue through
an implicit branch" (R917; log entry 18). -/
def State.advanceMachine (s : State) : Result :=
  if s.latches.checkstop && s.inputs.isEmpty then .fault .checkstop
  else
    let b := s.boundary
    if b.2 then .next b.1 else if b.1.moved then .refused .implicitBranch else b.1.fetchAndRun

/-- Puts an instruction's bytes where the next fetch takes them from (log entry 34). -/
def State.placeWord (s : State) (bytes : List Byte) : State :=
  let pa := (s.fetchAddr s.pc).getD s.pc
  { s with
    moved := false
    mem := Memory.writeBytes s.mem pa bytes
    icache := dropI s.icache (blockOf pa)
    map := if s.kindOf (blockOf pa) = .ram then s.map else ⟨blockOf pa, blockOf pa, .ram⟩ :: s.map }

end Sys2Proof.Machine
end

