-- ==== Sys2Proof/Machine/Step.lean ====
section
/-! DEFINITION. Machine/Step.lean: the step function of the machine. -/

namespace Sys2Proof.Machine

/-- One step of the machine. -/
def step (s : State) : Host.Outcome State Fault Refusal := s.advanceMachine

/-- The state with the instruction whose bits are `w` stored where the next step fetches it (log entry 34). -/
def State.withFetchWord (s : State) (_nbits w : Nat) : State := s.placeWord (bytesOfWord (BitVec.ofNat 32 w))

end Sys2Proof.Machine
end

