-- ==== Sys2Proof/Safety.lean ====
section
/-! DEFINITION. Safety.lean: what counts as a sound state, and the words the statements are written in. -/

namespace Sys2Proof.Machine

/-! ### The memory system -/

/-- No block is in the data cache twice. -/
def State.dcacheDistinct (s : State) : Prop := (s.dcache.map DLine.block).Nodup

/-- A block of the data cache that is not modified holds what memory holds (R165). -/
def State.dcacheCoherent (s : State) : Prop :=
  ∀ l ∈ s.dcache, l.mesi ≠ .modified → ∀ i < 32, blockByte l.data i = Memory.read s.mem (l.block.toNat * 32 + i)

/-- A modified block of the data cache lies in RAM. -/
def State.dcacheInRam (s : State) : Prop := ∀ l ∈ s.dcache, l.mesi = .modified → s.kindOf l.block = .ram

/-- The data memory system is sound: memory in its canonical form and, if the data cache is enabled, its blocks
distinct and coherent with memory, the modified ones in RAM. -/
def State.dataSound (s : State) : Prop :=
  Memory.wf s.mem = true ∧ (s.dcacheOn = true → s.dcacheDistinct ∧ s.dcacheCoherent ∧ s.dcacheInRam)

/-- The block is ordinary memory for the use: RAM, or for what does not write ROM (92 D5). -/
def State.ordinary (s : State) (u : Use) (b : BitVec 27) : Prop :=
  s.kindOf b = .ram ∨ (u.isStore = false ∧ s.kindOf b = .rom)

/-- The part of an operand at `ea` is plain storage for the use `u`: its translation answers `pa` and changes
nothing, ordinary memory is there, and the data cache, if it is enabled, may hold it. -/
def State.plainStorage (s : State) (u : Use) (ea pa : Word) (wimg : BitVec 4) : Prop :=
  s.translate u ea = (.mapped pa wimg, s) ∧ s.ordinary u (blockOf pa) ∧ (s.dcacheOn = true → attrI wimg = false)

/-- `t` differs from `s` in the data cache, memory, the bus log at most. -/
def State.onlyMemorySystem (s t : State) : Prop :=
  t = { s with dcache := t.dcache, mem := t.mem, busLog := t.busLog }

/-- `t` differs from `s` in the TLBs, the data cache, memory, the bus log, the count of free values and the note of a
TEA at most: what translating and accessing operands can change. -/
def State.onlyStorage (s t : State) : Prop :=
  t = { s with
    itlb := t.itlb, dtlb := t.dtlb, dcache := t.dcache, mem := t.mem, busLog := t.busLog, fresh := t.fresh
    tea := t.tea }

/-- Every byte a cacheable data access sees is the same in `t` as in `s`. -/
def State.sameBytes (s t : State) : Prop := ∀ a : Word, t.dataByte a = s.dataByte a

/-- To a cacheable data access, `t` is `s` with the bytes `ws` written at their physical addresses, and no other byte
changed. -/
def State.wroteBytes (s t : State) (ws : List (Word × Byte)) : Prop :=
  (∀ p ∈ ws, t.dataByte p.1 = p.2) ∧ ∀ a : Word, (∀ p ∈ ws, a ≠ p.1) → t.dataByte a = s.dataByte a

/-! ### Registers and flags -/

/-- Every GPR but those of `l` is the same in `t` as in `s`. -/
def State.gprsBut (s t : State) (l : List Reg) : Prop := ∀ q, q ∉ l → t.readGpr q = s.readGpr q

/-- Every FPR but those of `l` is the same in `t` as in `s`, and so is whether a single-precision operation wrote it
last. -/
def State.fprsBut (s t : State) (l : List Reg) : Prop :=
  ∀ q, q ∉ l → t.readFpr q = s.readFpr q ∧ t.fprIsSingle q = s.fprIsSingle q

/-- An integer is not the value of a signed word. -/
def outOfWord (x : Int) : Bool := decide (x < -2147483648) || decide (2147483647 < x)

/-- XER[OV] and XER[SO] of `t` after an instruction with overflow condition `ov` (R321). -/
def State.overflowed (s t : State) (oe ov : Bool) : Prop :=
  beBit t.xer 1 = (if oe then ov else beBit s.xer 1) ∧ beBit t.xer 0 = (beBit s.xer 0 || (oe && ov))

/-- The condition register of `t` after an instruction with result `v` (R321): CR0 compares it with zero if `rc`. -/
def State.recorded (s t : State) (rc : Bool) (v : Word) : Prop :=
  (∀ k, 4 ≤ k → beBit t.cr k = beBit s.cr k) ∧
  (if rc = true then
      beBit t.cr 0 = decide (v.toInt < 0) ∧ beBit t.cr 1 = decide (0 < v.toInt) ∧
        beBit t.cr 2 = decide (v.toInt = 0) ∧ beBit t.cr 3 = beBit t.xer 0
    else t.cr = s.cr)

/-- `t` is `s` after an integer instruction that wrote `v` to the GPR `r`: XER and CR may differ, nothing else. -/
def State.integerDone (s t : State) (r : Reg) (v : Word) : Prop :=
  t = { s with gpr := t.gpr, xer := t.xer, cr := t.cr, pc := s.pc + 4 } ∧ t.readGpr r = v ∧ s.gprsBut t [r]

/-- `t` is `s` after an addition `a + b + c` into the GPR `rD` (R321): the 32-bit sum, the carry out of 32 bits if
the instruction writes CA, the signed overflow, the record. -/
def State.summed (s t : State) (rD : Reg) (a b : Word) (c carries oe rc : Bool) : Prop :=
  s.integerDone t rD (BitVec.ofNat 32 (a.toNat + b.toNat + c.toNat)) ∧
  (∀ k, 3 ≤ k → beBit t.xer k = beBit s.xer k) ∧
  beBit t.xer 2 = (if carries then decide (4294967296 ≤ a.toNat + b.toNat + c.toNat) else beBit s.xer 2) ∧
  s.overflowed t oe (outOfWord (a.toInt + b.toInt + c.toNat)) ∧
  s.recorded t rc (BitVec.ofNat 32 (a.toNat + b.toNat + c.toNat))

/-- The four bits of CR field `n` of `t` are these, the other bits of CR as in `s`. -/
def State.crFieldIs (s t : State) (n : BitVec 3) (lt gt eq so : Bool) : Prop :=
  beBit t.cr (4 * n.toNat) = lt ∧ beBit t.cr (4 * n.toNat + 1) = gt ∧ beBit t.cr (4 * n.toNat + 2) = eq ∧
  beBit t.cr (4 * n.toNat + 3) = so ∧ ∀ k, k / 4 ≠ n.toNat → beBit t.cr k = beBit s.cr k

/-- Bit `i` of a rotated word with mask (R380). -/
def inMask (mb me : BitVec 5) (i : Nat) : Bool :=
  if mb.toNat ≤ me.toNat then decide (mb.toNat ≤ i) && decide (i ≤ me.toNat)
  else decide (i ≤ me.toNat) || decide (mb.toNat ≤ i)

/-! ### Exceptions -/

/-- The instruction reads storage: the loads of 42_loadstore.md, `lwarx` and `eciwx`, by their opcodes (R775 d). -/
def loadsStorage (i : Instr) : Bool :=
  let w := encode i
  [32, 33, 34, 35, 40, 41, 42, 43, 46, 48, 49, 50, 51].contains (primary w) ||
    (primary w == 31 &&
      [20, 23, 55, 87, 119, 279, 310, 311, 343, 375, 533, 534, 535, 567, 597, 599, 631, 790].contains (xo10 w))

/-- The instruction writes storage: the stores of 42_loadstore.md, `stwcx.`, `ecowx` and `dcbz` (R775 d). -/
def storesStorage (i : Instr) : Bool :=
  let w := encode i
  [36, 37, 38, 39, 44, 45, 47, 52, 53, 54, 55].contains (primary w) ||
    (primary w == 31 &&
      [150, 151, 183, 215, 247, 407, 438, 439, 661, 662, 663, 695, 725, 727, 759, 918, 983, 1014].contains (xo10 w))

/-- `lswx` and `stswx`, the string instructions that SRR1[10] marks (R774). -/
def stringIndexed (i : Instr) : Bool := primary (encode i) == 31 && [533, 661].contains (xo10 (encode i))

/-- A write of SDR1, EAR, HID0, PIR, a BAT or a segment register, which SRR1[11] marks (R774, R775 e). -/
def writesMmu (i : Instr) : Bool :=
  match i with
  | .mtspr _ n _ => [25, 282, 1008, 1023].contains n.toNat || (decide (528 ≤ n.toNat) && decide (n.toNat ≤ 543))
  | .mtsr _ _ | .mtsrin _ _ => true
  | _ => false

/-- `t` is `s` after taking the exception of offset `off` with `srr0` and information bits `info` (R736, R740, R741):
nothing else changes but what the MODEL notes of it. -/
def State.tookException (s t : State) (off srr0 info : Word) : Prop :=
  t = { s with
    exc := { s.exc with srr0 := srr0 &&& 0xFFFFFFFC, srr1 := (s.msr &&& 0x0000FFFF) ||| info }
    msr := (s.msr &&& 0x00011044) ||| (if beBit s.msr 15 then 1 else 0)
    pc := (if beBit s.msr 25 then 0xFFF00000 else 0) + off
    latches := { s.latches with halted := false }
    took := true
    moved := false }

/-- The condition of a conditional branch (R614): `ctr_ok` of the count register as it is after the decrement, and
`cond_ok`. -/
def branchCondition (bo : BitVec 5) (ctrAfter : Word) (crBit : Bool) : Bool :=
  (bo.getMsbD 2 || (ctrAfter != 0) != bo.getMsbD 3) && (bo.getMsbD 0 || crBit == bo.getMsbD 1)

/-- Whether a branch instruction is taken in `s`; `none` for what is no branch (R614, R775 c). -/
def State.branches (s : State) (i : Instr) : Option Bool :=
  let cond (bo bi : BitVec 5) : Bool :=
    branchCondition bo (if bo.getMsbD 2 then s.ctr else s.ctr - 1) (beBit s.cr bi.toNat)
  match i with
  | .b _ _ _ => some true
  | .bc bo bi _ _ _ => some (cond bo bi)
  | .bclr bo bi _ => some (cond bo bi)
  | .bcctr bo bi _ => some (cond bo bi)
  | _ => none

/-- `t` is `s` after the machine check of the causes `c`, which were pending (R748): SRR0 is some address. -/
def State.tookMachineCheck (s t : State) (c : McCause) : Prop :=
  let bit (b : Bool) (w : Word) : Word := if b then w else 0
  ∃ srr0 : Word, t = { s with
    exc := { s.exc with
      srr0 := srr0 &&& 0xFFFFFFFC
      srr1 := (s.msr &&& 0x0000FFFD) ||| bit c.icParity 0x00200000 ||| bit c.dcParity 0x00100000 |||
        bit c.mcp 0x00080000 ||| bit c.tea 0x00040000 ||| bit c.dataParity 0x00020000 |||
        bit c.addrParity 0x00010000 ||| bit (c == { McCause.none with mcp := true }) (s.msr &&& 0x00000002) }
    msr := (s.msr &&& 0x00010044) ||| bit (beBit s.msr 15) 1
    pc := bit (beBit s.msr 25) 0xFFF00000 + 0x00200
    latches := { s.latches with mc := McCause.none, halted := false }
    fresh := s.fresh + 1
    took := true
    moved := false }

/-! ### Floating point -/

/-- The instructions that need MSR[FP]: primary opcodes 48 to 55, 59 and 63, and the indexed floating-point loads
and stores of primary opcode 31 (R420, R769). -/
def needsFp (i : Instr) : Bool :=
  let w := encode i
  (decide (48 ≤ primary w) && decide (primary w ≤ 55)) || primary w == 59 || primary w == 63 ||
    (primary w == 31 && [535, 567, 599, 631, 663, 695, 727, 759, 983].contains (xo10 w))

/-- No floating-point enabled exception can be taken: MSR[FP] = 1, MSR[FE0] = MSR[FE1] = 0 (R40, R770). -/
def State.fpQuiet (s : State) : Prop := beBit s.msr 18 = true ∧ beBit s.msr 20 = false ∧ beBit s.msr 23 = false

/-- `t` is `s` after a floating-point instruction that writes at most the FPR `frD`, FPSCR and, if `rc`, CR1 (R429);
free values may have been drawn. -/
def State.fpDoneAs (s t : State) (frD : Reg) (rc : Bool) : Prop :=
  t = { s with
    fpr := t.fpr, fprSingle := t.fprSingle, fpscr := t.fpscr, cr := t.cr, pc := s.pc + 4, fresh := t.fresh } ∧
  s.fprsBut t [frD] ∧
  t.cr = (if rc then setField4 s.cr 1 (getField4 t.fpscr 0) else s.cr)

/-- FPSCR[VX] and FPSCR[FEX] are the summaries of the other bits (R428). -/
def fpSummarized (w : Word) : Prop :=
  beBit w 2 = (w &&& 0x01F80700 != 0) ∧
  beBit w 1 = ((beBit w 2 && beBit w 24) || (beBit w 3 && beBit w 25) || (beBit w 4 && beBit w 26) ||
    (beBit w 5 && beBit w 27) || (beBit w 6 && beBit w 28))

/-- Whether a single-precision operation wrote `frD` last, in `t` after an operation, `single` or not, that writes it or
leaves it (R473; log entry 53). -/
def State.fpWrittenBy (s t : State) (frD : Reg) (single : Bool) (written : Bool) : Prop :=
  t.fprIsSingle frD = if written then single else s.fprIsSingle frD

/-- `t` holds what the operation `r` delivers (R426 to R428): the result and FPRF unless they stay, FR and FI where
they are defined, the exception bits added, FX set if one of them is new, the control bits kept, the summaries. -/
def State.fpDelivered (s t : State) (frD : Reg) (r : FpOut) : Prop :=
  (match r.write with
    | some (d, c) => t.readFpr frD = d ∧ t.fpscr.extractLsb' 12 5 = c
    | none => t.readFpr frD = s.readFpr frD ∧ t.fpscr.extractLsb' 12 5 = s.fpscr.extractLsb' 12 5) ∧
  (∀ b, r.fr = some b → beBit t.fpscr 13 = b) ∧ (∀ b, r.fi = some b → beBit t.fpscr 14 = b) ∧
  t.fpscr &&& fpExceptions = (s.fpscr ||| r.exc) &&& fpExceptions ∧
  beBit t.fpscr 0 = (beBit s.fpscr 0 || (r.exc &&& ~~~s.fpscr &&& fpExceptions != 0)) ∧
  t.fpscr &&& 0xFF = s.fpscr &&& 0xFF ∧ fpSummarized t.fpscr

/-- The rational number a finite value stands for (R421). -/
def FpVal.isNumber : FpVal → Rat → Prop
  | .zero _, q => q = 0
  | .num neg m e, q => q = (if neg then -1 else 1) * (m : Rat) * (2 : Rat) ^ e
  | .nan, _ => False
  | .inf _, _ => False

/-- `z` is the number `x` rounded to an integer (R425). -/
def Rounding.toInteger (rn : Rounding) (x : Rat) (z : Int) : Prop :=
  match rn with
  | .nearest => 2 * |x - z| ≤ 1 ∧ (2 * |x - z| = 1 → z % 2 = 0)
  | .towardZero => |(z : Rat)| ≤ |x| ∧ |x| < |(z : Rat)| + 1 ∧ 0 ≤ x * z
  | .up => x ≤ z ∧ (z : Rat) < x + 1
  | .down => (z : Rat) ≤ x ∧ x < z + 1

/-- `o` delivers the number `x` rounded once to the format, of the opposite sign with `flip`, as R425 to R427 say for
OE = UE = NI = 0: the exact `x` lies in a binade, is rounded to an integer `z` of units in the last place, and the
result, FPRF, FR, FI and the exception bits follow from `x` and `z`. -/
def FpFormat.delivers (fmt : FpFormat) (w : Word) (flip : Bool) (x : Rat) (o : FpOut) : Prop :=
  let neg : Bool := decide (x < 0) != flip
  let opp : Rat := if flip then -1 else 1
  (x = 0 → ∃ d n, o = ⟨0, some (d, classZero n), some false, some false⟩ ∧ unpack d = .zero n) ∧
  (x ≠ 0 → ∃ lead z : Int, (2 : Rat) ^ lead ≤ |x| ∧ |x| < (2 : Rat) ^ (lead + 1) ∧
    let unit : Rat := (2 : Rat) ^ (max lead fmt.emin - (fmt.prec - 1))
    (fpRN w).toInteger (x / unit) z ∧
    ∃ d c, o.write = some (d, c) ∧
      if (2 : Rat) ^ (fmt.emax + 1) ≤ |z * unit| then
        o.exc = fpOX ||| fpXX ∧ o.fr = none ∧ o.fi = some true ∧
        if overflowsToInf (fpRN w) (decide (x < 0)) then unpack d = .inf neg ∧ c = classInf neg
        else
          (unpack d).isNumber ((if neg then -1 else 1) * (2 ^ fmt.prec - 1) * 2 ^ (fmt.emax - (fmt.prec - 1))) ∧
          c = classNormal neg
      else
        (unpack d).isNumber (opp * z * unit) ∧
        c = (if z = 0 then classZero neg else if |z * unit| < (2 : Rat) ^ fmt.emin then classDenormal neg
          else classNormal neg) ∧
        o.fr = some (decide (|x| < |z * unit|)) ∧ o.fi = some (decide (z * unit ≠ x)) ∧
        o.exc = (if z * unit = x then 0 else if lead < fmt.emin then fpUX ||| fpXX else fpXX))

/-! ### Page tables -/

/-- The word at a physical address as a data access sees it, its bytes in rising order (R226). -/
def State.tableWord (s : State) (a : Word) : Word :=
  s.dataByte a ++ s.dataByte (a + 1) ++ s.dataByte (a + 2) ++ s.dataByte (a + 3)

/-- The addresses of the sixteen entries a search looks at, in order, and whether each is of the secondary group
(R227, R228). -/
def pteSlots (sdr1 : Word) (h : BitVec 19) : List (Word × Bool) :=
  (List.range 8).map (fun i => (ptegAddr sdr1 h + BitVec.ofNat 32 (8 * i), false)) ++
    (List.range 8).map (fun i => (ptegAddr sdr1 (~~~h) + BitVec.ofNat 32 (8 * i), true))

/-- The entry a search finds: the first whose first word has V = 1, the VSID, H of its group, and the API (R228). -/
def State.pteFor (s : State) (vsid : BitVec 24) (ea : Word) : Option Word :=
  let h : BitVec 19 := vsid.extractLsb' 0 19 ^^^ (0#3 ++ ea.extractLsb' 12 16)
  ((pteSlots s.mmu.sdr1 h).find? fun p =>
    s.tableWord p.1 == 1#1 ++ vsid ++ BitVec.ofBool p.2 ++ ea.extractLsb' 22 6).map Prod.fst

/-- What a page answers to an access: protection, guarded storage for a fetch, the later checks, or the physical
address (R229, R237). -/
def State.pageAnswer (s : State) (u : Use) (sr ea : Word) (rpn : BitVec 20) (wimg : BitVec 4) (pp : BitVec 2) : Xlate :=
  if pageAllows (if beBit s.msr 17 then beBit sr 2 else beBit sr 1) pp u.isStore = false then .fail .protection
  else if u = .fetch ∧ wimg.getMsbD 3 = true then .fail .noExecute
  else match s.lateFault u ea wimg with
    | some f => .fail f
    | none => .mapped (rpn ++ ea.extractLsb' 0 12) wimg

/-- The access reaches storage. -/
def Xlate.isMapped : Xlate → Bool
  | .mapped _ _ => true
  | .directStore _ => false
  | .fail _ => false

/-! ### Storage without translation or cache -/

/-- Data accesses go to memory at their own addresses, in big-endian order: no translation, no data cache, no
breakpoint, no valid DBAT (R202, R163). -/
def State.bareAccess (s : State) : Prop :=
  s.msrDR = false ∧ s.msrLE = false ∧ s.dcacheOn = false ∧ s.cfg.dabr &&& 3 = 0 ∧
    (∀ k : Fin 4, (s.mmu.dbat[k]).upper &&& 3 = 0) ∧ Memory.wf s.mem = true

/-- The same, with RAM everywhere. -/
def State.bareData (s : State) : Prop := s.bareAccess ∧ ∀ b, s.kindOf b = .ram

/-- The byte of memory `k` bytes after an effective address that is not translated. -/
def State.bareByte (s : State) (ea : Word) (k : Nat) : Byte := Memory.read s.mem (ea + BitVec.ofNat 32 k).toNat

/-- Register `j` of a load of `n` bytes: the four bytes that fall to it, zeros beyond the last (R555). -/
def State.packedWord (s : State) (ea : Word) (n j : Nat) : Word :=
  let b (i : Nat) : Byte := if 4 * j + i < n then s.bareByte ea (4 * j + i) else 0
  b 0 ++ b 1 ++ b 2 ++ b 3

/-- `t` is `s` after a load of `n` bytes at `ea` into the registers from `rD` on (R550, R555). -/
def State.loadedRegs (s t : State) (rD : Reg) (ea : Word) (n : Nat) : Prop :=
  t = { s with gpr := t.gpr, pc := s.pc + 4, busLog := t.busLog } ∧
  (∀ j < (n + 3) / 4, t.readGpr (rD + BitVec.ofNat 5 j) = s.packedWord ea n j) ∧
  ∀ q, (∀ j < (n + 3) / 4, q ≠ rD + BitVec.ofNat 5 j) → t.readGpr q = s.readGpr q

/-- `t` is `s` after a store of `n` bytes at `ea` from the registers from `rS` on (R550, R555). -/
def State.storedRegs (s t : State) (rS : Reg) (ea : Word) (n : Nat) : Prop :=
  t = { s with mem := t.mem, pc := s.pc + 4, busLog := t.busLog } ∧
  (∀ k < n, t.bareByte ea k =
    (s.readGpr (rS + BitVec.ofNat 5 (k / 4))).extractLsb' (24 - 8 * (k % 4)) 8) ∧
  ∀ a : Word, (∀ k < n, a ≠ ea + BitVec.ofNat 32 k) → Memory.read t.mem a.toNat = Memory.read s.mem a.toNat

/-! ### Loads and stores of one operand -/

/-- An operand of `n` bytes that is one access: inside an aligned word, or an aligned double word (R154). -/
def oneAccess (ea : Word) (n : Nat) : Prop := ea.toNat % 4 + n ≤ 4 ∨ (n = 8 ∧ ea.toNat % 8 = 0)

/-- The operand of `n` bytes at `ea` is one access to plain storage at `pa` in a sound memory system. -/
def State.plainOperand (s : State) (u : Use) (ea pa : Word) (wimg : BitVec 4) (n : Nat) : Prop :=
  s.dataSound ∧ s.plainStorage u ea pa wimg ∧ oneAccess ea n

/-- The value of the operand at physical address `pa`, its most significant byte first in the current byte order
(R134, R136). -/
def State.operandBytes (s : State) (pa : Word) (n : Nat) : List Byte :=
  s.orderBytes ((physSpan s.msrLE pa n).map s.dataByte)

/-- `t` is `s` after an access that changed no byte that a data access sees; the GPRs of `l` may be written. -/
def State.accessed (s t : State) (l : List Reg) : Prop :=
  t = { s with gpr := t.gpr, pc := s.pc + 4, dcache := t.dcache, mem := t.mem, busLog := t.busLog } ∧
  s.gprsBut t l ∧ s.sameBytes t

/-- `t` is `s` after the bytes `bs`, the most significant first, were stored at `pa`; the GPRs of `l` may be
written. -/
def State.stored (s t : State) (l : List Reg) (pa : Word) (bs : List Byte) : Prop :=
  t = { s with gpr := t.gpr, pc := s.pc + 4, dcache := t.dcache, mem := t.mem, busLog := t.busLog } ∧
  s.gprsBut t l ∧ s.wroteBytes t ((physSpan s.msrLE pa bs.length).zip (s.orderBytes bs))

/-- The same with an FPR written in place of the GPRs, and GPRs of `l` written too. -/
def State.accessedFp (s t : State) (frD : Reg) (l : List Reg) : Prop :=
  t = { s with
    gpr := t.gpr, fpr := t.fpr, fprSingle := t.fprSingle, pc := s.pc + 4, dcache := t.dcache, mem := t.mem
    busLog := t.busLog } ∧
  s.gprsBut t l ∧ s.fprsBut t [frD] ∧ s.sameBytes t

/-! ### Invariants -/

/-- The reserved bits of the special registers read 0 (R14, R34, R39, R43, R52, R56, R59). -/
def State.reservedZero (s : State) : Prop :=
  s.msr &&& 0xFFFA0088 = 0 ∧ s.xer &&& 0x1FFFFF80 = 0 ∧ s.fpscr &&& 0x00000800 = 0 ∧ s.cfg.hid0 &&& 0x0EFE0E79 = 0 ∧
    s.cfg.ear &&& 0x7FFFFFC0 = 0 ∧ s.mmu.sdr1 &&& 0x0000FE00 = 0 ∧ s.pm.mmcr1 &&& 0x003FFFFF = 0

/-- The bits of the register of an SPR number that are storage; the others are reserved and read 0 (R14, R34, R43,
R52, R56, R59, R205, R206). -/
def sprMask (n : Nat) : Word :=
  if n = 1 then 0xE000007F
  else if n = 25 then 0xFFFF01FF
  else if n = 282 then 0x8000003F
  else if n = 956 then 0xFFC00000
  else if n = 1008 then 0xF101F186
  else if 528 ≤ n ∧ n < 544 ∧ n % 2 = 0 then 0xFFFE1FFF
  else if 528 ≤ n ∧ n < 536 then 0xFFFE003B
  else if 536 ≤ n ∧ n < 544 then 0xFFFE007B
  else 0xFFFFFFFF

/-- What every step keeps: memory in its canonical form, pc word-aligned (R132), the reserved bits 0, the summary
bits of FPSCR the summaries. -/
def State.Inv (s : State) : Prop :=
  Memory.wf s.mem = true ∧ s.pc &&& 3 = 0 ∧ s.reservedZero ∧ fpSummarized s.fpscr

/-- The state software with MSR[PR] = 1 cannot write: MSR, exception registers, MMU, configuration, performance
monitor, time base, decrementer, latches. -/
def State.supervisorPart (s : State) : Word × ExcRegs × MmuRegs × CfgRegs × PerfMon × Dword × Word × Latches :=
  (s.msr, s.exc, s.mmu, s.cfg, s.pm, s.tb, s.dec, s.latches)

end Sys2Proof.Machine
end

