-- ==== Sys2Proof/Certificates/Slice0/Obligations.lean ====
section
/-! DEFINITION. Certificates/Slice0/Obligations.lean: the statements for the provers. -/

open Sys2Proof Sys2Proof.Machine

/-- Decoding the word of any instruction gives the instruction back. For every instruction, with every operand at
every value its encoding admits, decode of its encoded word is that instruction, and so is decoding the four bytes
of the word in a byte string, which leaves the rest of the string. The encoder writes must-be-zero bits as zero.
(R260, R264, R267, R268, R269, R270, R272, R273, R274, R277, R296) -/
def Obligations.DecodeOfEncode : Prop :=
  ∀ i : Instr, decode (encode i) = .ok i ∧
    ∀ rest : List Byte, decodeBytes (bytesOfWord (encode i) ++ rest) = .ok (i, rest)

/-- Words written out from the encodings decode to the instructions they stand for. Six words, one of each of six
families, written out from the spec's encodings and examples, decode to their instructions: addi r3,r0,-1; addo.
r3,r4,r5; fadd f1,f2,f3; lwz r3,8(r4); bc 16,0,-8; mtspr 8,r5. (R277, R281, R282, R283, R284, R322, R324, R430,
R522, R621, R663) -/
def Obligations.TableWordsDecode : Prop :=
  decode 0x3860FFFF = .ok (.addi 3 0 0xFFFF) ∧ decode 0x7C642E15 = .ok (.add 3 4 5 true true) ∧
    decode 0xFC22182A = .ok (.fadd 1 2 3 false) ∧ decode 0x80640008 = .ok (.lwz 3 4 8) ∧
    decode 0x4200FFF8 = .ok (.bc 16 0 0x3FFE false false) ∧ decode 0x7CA803A6 = .ok (.mtspr 5 8 false)

/-- A step fetches at the program counter and runs the decoded instruction. If the boundary of this step takes no
exception, no implicit branch was made before, the address at pc translates for a fetch, no instruction breakpoint
matches and the four bytes fetched (with no access of the fetch answered by TEA, log entry 4) decode to i, then the
step is the meaning of i on the state after the fetch (with the MODEL's note of a taken exception cleared), followed
by the trace test of a completed instruction. An instruction that can move the running code, took no exception and
moves the physical address of the next instruction is noted as an implicit branch; after one, a step whose boundary
takes no exception is refused in place of its fetch (log entry 18). (R142, R235, R735, R774, R789, R917) -/
def Obligations.StepRunsDecodedInstruction : Prop :=
  ∀ (s s1 : State), s.latches.checkstop = false → s.boundary = (s1, false) →
    (s1.moved = true → step s = .refused .implicitBranch) ∧
    ∀ (s2 s3 : State) (pa : Word) (wimg : BitVec 4) (bs : List Byte) (i : Instr),
    s1.moved = false → s1.translate .fetch s1.pc = (.mapped pa wimg, s2) → s2.iabrMatch = false →
    s2.fetchPhys wimg (s2.mungeWord pa) = (bs, s3) → s3.tea = false →
    decode (BitVec.ofNat 32 (natOfBytes bs)) = .ok i →
    step s = (match exec i { s3 with took := false } with
      | .next t =>
        .next (State.complete { t with moved := !t.took && altersStream s3 i && implicitBranch s3 t t.pc } s3 i)
      | .fault f => .fault f
      | .refused r => .refused r)

/-- The additions and subtractions, addi and addis: result, carry, overflow, record, frame, completion. add, subf,
addc, subfc, adde, subfe, addme, subfme, addze, subfze, neg, addic, addic. and subfic complete for all operands: rD
gets the sum a + b + c modulo 2^32 of the operands their rules name; the carrying forms set CA to the carry out of
32 bits; OE sets OV to signed overflow of the exact sum and ORs it into SO; Rc compares the result with zero into
CR0. No other register, no other XER or CR bit, no byte of memory changes. addi and addis complete too: rD gets
(rA|0) plus the sign-extended immediate, or plus the immediate in the upper half; pc advances and nothing else
changes, no flag either. (R13, R321, R322, R323, R324, R325, R326, R327, R328, R329 to R331 of 40_integer.md, R332
to R336 of 40_integer.md, R337) -/
def Obligations.AdditionsAndSubtractions : Prop :=
  ∀ (s : State) (rD rA rB : Reg) (imm : BitVec 16) (oe rc : Bool),
    let a := s.readGpr rA
    let b := s.readGpr rB
    let ca := beBit s.xer 2
    (∃ t, exec (.add rD rA rB oe rc) s = .next t ∧ s.summed t rD a b false false oe rc) ∧
    (∃ t, exec (.subf rD rA rB oe rc) s = .next t ∧ s.summed t rD (~~~a) b true false oe rc) ∧
    (∃ t, exec (.addc rD rA rB oe rc) s = .next t ∧ s.summed t rD a b false true oe rc) ∧
    (∃ t, exec (.subfc rD rA rB oe rc) s = .next t ∧ s.summed t rD (~~~a) b true true oe rc) ∧
    (∃ t, exec (.adde rD rA rB oe rc) s = .next t ∧ s.summed t rD a b ca true oe rc) ∧
    (∃ t, exec (.subfe rD rA rB oe rc) s = .next t ∧ s.summed t rD (~~~a) b ca true oe rc) ∧
    (∃ t, exec (.addme rD rA oe rc) s = .next t ∧ s.summed t rD a 0xFFFFFFFF ca true oe rc) ∧
    (∃ t, exec (.subfme rD rA oe rc) s = .next t ∧ s.summed t rD (~~~a) 0xFFFFFFFF ca true oe rc) ∧
    (∃ t, exec (.addze rD rA oe rc) s = .next t ∧ s.summed t rD a 0 ca true oe rc) ∧
    (∃ t, exec (.subfze rD rA oe rc) s = .next t ∧ s.summed t rD (~~~a) 0 ca true oe rc) ∧
    (∃ t, exec (.neg rD rA oe rc) s = .next t ∧ s.summed t rD (~~~a) 0 true false oe rc) ∧
    (∃ t, exec (.addic rD rA imm) s = .next t ∧ s.summed t rD a (imm.signExtend 32) false true false false) ∧
    (∃ t, exec (.addicRec rD rA imm) s = .next t ∧ s.summed t rD a (imm.signExtend 32) false true false true) ∧
    (∃ t, exec (.subfic rD rA imm) s = .next t ∧ s.summed t rD (~~~a) (imm.signExtend 32) true true false false) ∧
    exec (.addi rD rA imm) s = .next { s with
      gpr := s.gpr.set rD.toNat ((if rA = 0 then 0 else a) + imm.signExtend 32) rD.isLt, pc := s.pc + 4 } ∧
    exec (.addis rD rA imm) s = .next { s with
      gpr := s.gpr.set rD.toNat ((if rA = 0 then 0 else a) + (imm ++ 0#16)) rD.isLt, pc := s.pc + 4 }

/-- The multiplications as integer products: result, overflow, record, frame, completion. mulli and mullw write the
low word of the signed product, mulhw and mulhwu the high word of the signed and unsigned product; mullw with OE = 1
sets OV exactly when the signed product is no signed word. XER[CA] and every other register, bit and byte stay.
(R321, R338, R339, R340, R341) -/
def Obligations.Multiplications : Prop :=
  ∀ (s : State) (rD rA rB : Reg) (imm : BitVec 16) (oe rc : Bool),
    let a := s.readGpr rA
    let b := s.readGpr rB
    let low : Word := BitVec.ofInt 32 (a.toInt * b.toInt)
    let high : Word := BitVec.ofInt 32 (a.toInt * b.toInt / 4294967296)
    let highU : Word := BitVec.ofNat 32 (a.toNat * b.toNat / 4294967296)
    (∃ t, exec (.mulli rD rA imm) s = .next t ∧
      s.integerDone t rD (BitVec.ofInt 32 (a.toInt * imm.toInt)) ∧ t.xer = s.xer ∧ t.cr = s.cr) ∧
    (∃ t, exec (.mullw rD rA rB oe rc) s = .next t ∧ s.integerDone t rD low ∧
      (∀ k, 2 ≤ k → beBit t.xer k = beBit s.xer k) ∧ s.overflowed t oe (outOfWord (a.toInt * b.toInt)) ∧
      s.recorded t rc low) ∧
    (∃ t, exec (.mulhw rD rA rB rc) s = .next t ∧ s.integerDone t rD high ∧ t.xer = s.xer ∧ s.recorded t rc high) ∧
    (∃ t, exec (.mulhwu rD rA rB rc) s = .next t ∧ s.integerDone t rD highU ∧ t.xer = s.xer ∧ s.recorded t rc highU)

/-- The divisions: quotient, flags, frame, completion, also where the quotient is undefined. With a divisor that is
not zero (and, signed, not the quotient 2^31) divw writes the quotient truncated toward zero and divwu the floor, OE
= 1 clears OV and Rc records the quotient. Otherwise they complete too: some value is in rD (a free value, log entry
39, and not stated), OE = 1 sets OV and SO, CR0[3] copies SO if Rc = 1. The other XER bits, CR1 to CR7, the other
registers and memory stay in all cases. (R321, R342, R343) -/
def Obligations.Divisions : Prop :=
  ∀ (s : State) (rD rA rB : Reg) (oe rc : Bool),
    let a := s.readGpr rA
    let b := s.readGpr rB
    let undef (t : State) : Prop :=
      t = { s with gpr := t.gpr, xer := t.xer, cr := t.cr, pc := s.pc + 4 } ∧ s.gprsBut t [rD] ∧
      (∀ k, 2 ≤ k → beBit t.xer k = beBit s.xer k) ∧ s.overflowed t oe true ∧
      (∀ k, 4 ≤ k → beBit t.cr k = beBit s.cr k) ∧
      (if rc = true then beBit t.cr 3 = beBit t.xer 0 else t.cr = s.cr)
    let quotient (t : State) (q : Word) : Prop :=
      s.integerDone t rD q ∧ (∀ k, 2 ≤ k → beBit t.xer k = beBit s.xer k) ∧ s.overflowed t oe false ∧
      s.recorded t rc q
    (b ≠ 0 → ¬(a = 0x80000000 ∧ b = 0xFFFFFFFF) → ∃ t, exec (.divw rD rA rB oe rc) s = .next t ∧
      quotient t (BitVec.ofInt 32 (a.toInt.tdiv b.toInt))) ∧
    (b = 0 ∨ (a = 0x80000000 ∧ b = 0xFFFFFFFF) → ∃ t, exec (.divw rD rA rB oe rc) s = .next t ∧ undef t) ∧
    (b ≠ 0 → ∃ t, exec (.divwu rD rA rB oe rc) s = .next t ∧ quotient t (BitVec.ofNat 32 (a.toNat / b.toNat))) ∧
    (b = 0 → ∃ t, exec (.divwu rD rA rB oe rc) s = .next t ∧ undef t)

/-- The integer compares: field, frame, completion. cmpi, cmp (signed) and cmpli, cmpl (unsigned) complete for all
operands, with either value of L (log entry 5): the CR field named gets less, greater, equal and SO; no other CR
bit, no register, no byte of memory changes. (R350, R351, R352, R353, R354) -/
def Obligations.IntegerCompares : Prop :=
  ∀ (s : State) (crfD : BitVec 3) (l : Bool) (rA rB : Reg) (imm : BitVec 16),
    let a := s.readGpr rA
    let b := s.readGpr rB
    let done (i : Instr) (x y : Int) : Prop :=
      ∃ t, exec i s = .next t ∧ t = { s with cr := t.cr, pc := s.pc + 4 } ∧
        s.crFieldIs t crfD (decide (x < y)) (decide (y < x)) (decide (x = y)) (beBit s.xer 0)
    done (.cmpi crfD l rA imm) a.toInt imm.toInt ∧ done (.cmp crfD l rA rB) a.toInt b.toInt ∧
    done (.cmpli crfD l rA imm) a.toNat imm.toNat ∧ done (.cmpl crfD l rA rB) a.toNat b.toNat

/-- The logical instructions, extsb, extsh and cntlzw: result, record, frame, completion. Every bit of rA after a
logical instruction is the named function of the bits of the operands; andi. and andis. and the forms with Rc = 1
record it in CR0; XER, the other registers and memory stay. extsb and extsh write the signed value of the low byte
or halfword; cntlzw writes how many zero bits lead the operand: at most 32, every bit before is 0 and, below 32, the
next is 1. XER, the other registers and memory stay. (R321, R361, R363, R365, R367, R368, R369, R370, R371, R372 to
R374 of 40_integer.md, R375, R376 and R377 of 40_integer.md) -/
def Obligations.LogicalInstructions : Prop :=
  (∀ (s : State) (rS rA rB : Reg) (imm : BitVec 16) (rc : Bool),
    let a := s.readGpr rS
    let b := s.readGpr rB
    let low : Word := 0#16 ++ imm
    let high : Word := imm ++ 0#16
    let done (i : Instr) (c : Word) (f : Bool → Bool → Bool) (record : Bool) : Prop :=
      ∃ t v, exec i s = .next t ∧ s.integerDone t rA v ∧ t.xer = s.xer ∧ s.recorded t record v ∧
        ∀ k, k < 32 → beBit v k = f (beBit a k) (beBit c k)
    done (.andiRec rS rA imm) low (· && ·) true ∧ done (.andisRec rS rA imm) high (· && ·) true ∧
    done (.ori rS rA imm) low (· || ·) false ∧ done (.oris rS rA imm) high (· || ·) false ∧
    done (.xori rS rA imm) low (· != ·) false ∧ done (.xoris rS rA imm) high (· != ·) false ∧
    done (.and rS rA rB rc) b (· && ·) rc ∧ done (.or rS rA rB rc) b (· || ·) rc ∧
    done (.xor rS rA rB rc) b (· != ·) rc ∧ done (.nand rS rA rB rc) b (fun x y => !(x && y)) rc ∧
    done (.nor rS rA rB rc) b (fun x y => !(x || y)) rc ∧ done (.eqv rS rA rB rc) b (· == ·) rc ∧
    done (.andc rS rA rB rc) b (fun x y => x && !y) rc ∧ done (.orc rS rA rB rc) b (fun x y => x || !y) rc) ∧
  ∀ (s : State) (rS rA : Reg) (rc : Bool),
    let a := s.readGpr rS
    let byte : Word := BitVec.ofInt 32 (a.toInt.bmod 256)
    let half : Word := BitVec.ofInt 32 (a.toInt.bmod 65536)
    (∃ t, exec (.extsb rS rA rc) s = .next t ∧ s.integerDone t rA byte ∧ t.xer = s.xer ∧ s.recorded t rc byte) ∧
    (∃ t, exec (.extsh rS rA rc) s = .next t ∧ s.integerDone t rA half ∧ t.xer = s.xer ∧ s.recorded t rc half) ∧
    (∃ t n, exec (.cntlzw rS rA rc) s = .next t ∧ n ≤ 32 ∧ (∀ k, k < n → beBit a k = false) ∧
      (n < 32 → beBit a n = true) ∧ s.integerDone t rA (BitVec.ofNat 32 n) ∧ t.xer = s.xer ∧
      s.recorded t rc (BitVec.ofNat 32 n))

/-- The rotates bit by bit and the shifts as powers of two: result, carry, record, frame, completion. Bit k of rA
after rlwinm, rlwnm or rlwimi is bit (k + n) mod 32 of rS where the mask has a one, and 0 (or, for rlwimi, the old
bit of rA) where it has a zero; the mask wraps when MB > ME. XER, the other registers and memory stay. With n the
six-bit amount (SH for srawi): slw writes the operand times 2^n modulo 2^32, srw the floor of the operand divided by
2^n, srawi and sraw the floor of the signed operand divided by 2^n with CA set exactly when a negative operand was
not a multiple of 2^n. Amounts from 32 to 63 are covered. OV, SO, the other registers and memory stay. (R321, R380,
R381, R382, R383, R390, R391, R392, R393) -/
def Obligations.RotatesAndShifts : Prop :=
  (∀ (s : State) (rS rA rB : Reg) (sh mb me : BitVec 5) (rc : Bool),
    let a := s.readGpr rS
    let m := (s.readGpr rB).toNat % 32
    let done (i : Instr) (n : Nat) (outside : Nat → Bool) : Prop :=
      ∃ t v, exec i s = .next t ∧ s.integerDone t rA v ∧ t.xer = s.xer ∧ s.recorded t rc v ∧
        ∀ k, k < 32 → beBit v k = if inMask mb me k then beBit a ((k + n) % 32) else outside k
    done (.rlwinm rS rA sh mb me rc) sh.toNat (fun _ => false) ∧ done (.rlwnm rS rA rB mb me rc) m (fun _ => false) ∧
    done (.rlwimi rS rA sh mb me rc) sh.toNat (fun k => beBit (s.readGpr rA) k)) ∧
  ∀ (s : State) (rS rA rB : Reg) (sh : BitVec 5) (rc : Bool),
    let a := s.readGpr rS
    let n := (s.readGpr rB).toNat % 64
    let left : Word := BitVec.ofNat 32 (a.toNat * 2 ^ n)
    let right : Word := BitVec.ofNat 32 (a.toNat / 2 ^ n)
    let algebraic (i : Instr) (k : Nat) : Prop :=
      ∃ t, exec i s = .next t ∧ s.integerDone t rA (BitVec.ofInt 32 (a.toInt / 2 ^ k)) ∧
        (∀ j, j ≠ 2 → beBit t.xer j = beBit s.xer j) ∧
        beBit t.xer 2 = (decide (a.toInt < 0) && decide (a.toInt % 2 ^ k ≠ 0)) ∧
        s.recorded t rc (BitVec.ofInt 32 (a.toInt / 2 ^ k))
    (∃ t, exec (.slw rS rA rB rc) s = .next t ∧ s.integerDone t rA left ∧ t.xer = s.xer ∧ s.recorded t rc left) ∧
    (∃ t, exec (.srw rS rA rB rc) s = .next t ∧ s.integerDone t rA right ∧ t.xer = s.xer ∧ s.recorded t rc right) ∧
    algebraic (.srawi rS rA sh rc) sh.toNat ∧ algebraic (.sraw rS rA rB rc) n

/-- The branches: condition, target, link and count registers, frame, completion. b, bc, bclr and bcctr complete for
every operand. CTR is decremented exactly when BO[2] = 0; a conditional branch is taken when ctr_ok and cond_ok
hold; the target is the displacement (relative or absolute), the old LR or CTR with the low two bits cleared (for
bcctr with BO[2] = 0, an invalid form, some word-aligned address: a free value, log entry 29); LK = 1 writes the
return address to LR, taken or not. Nothing else changes (but the MODEL's count of free values in that form). (R614,
R616, R620, R621, R622, R623, R291, 92_eei_decisions.md D19) -/
def Obligations.BranchInstructions : Prop :=
  ∀ (s : State) (li : BitVec 24) (bd : BitVec 14) (bo bi : BitVec 5) (aa lk : Bool),
    let after : Word := if bo.getMsbD 2 then s.ctr else s.ctr - 1
    let link : Word := if lk then s.pc + 4 else s.lr
    let go (target : Word) : Word :=
      if branchCondition bo after (beBit s.cr bi.toNat) then target else s.pc + 4
    exec (.b li aa lk) s = .next { s with
      lr := link, pc := (if aa then 0 else s.pc) + BitVec.ofInt 32 (li.toInt * 4) } ∧
    exec (.bc bo bi bd aa lk) s = .next { s with
      ctr := after, lr := link, pc := go ((if aa then 0 else s.pc) + BitVec.ofInt 32 (bd.toInt * 4)) } ∧
    exec (.bclr bo bi lk) s = .next { s with ctr := after, lr := link, pc := go (s.lr &&& 0xFFFFFFFC) } ∧
    (bo.getMsbD 2 = true →
      exec (.bcctr bo bi lk) s = .next { s with lr := link, pc := go (s.ctr &&& 0xFFFFFFFC) }) ∧
    (bo.getMsbD 2 = false → ∃ target : Word, target &&& 3 = 0 ∧
      exec (.bcctr bo bi lk) s = .next { s with ctr := after, lr := link, pc := go target, fresh := s.fresh + 1 })

/-- Condition register logic and mcrf: the bit or field written, frame, completion. Each of the eight condition
register logical instructions writes one CR bit with its function of two CR bits as they were, mcrf copies a field;
the other CR bits and the rest of the machine but pc stay. (R630, R631, R632, R633, R634, R635, R636, R637, R638,
R639) -/
def Obligations.ConditionRegisterLogic : Prop :=
  ∀ (s : State) (d a b : BitVec 5) (fD fS : BitVec 3),
    let x := beBit s.cr a.toNat
    let y := beBit s.cr b.toNat
    let done (i : Instr) (v : Bool) : Prop :=
      ∃ t, exec i s = .next t ∧ t = { s with cr := t.cr, pc := s.pc + 4 } ∧ beBit t.cr d.toNat = v ∧
        ∀ k, k ≠ d.toNat → beBit t.cr k = beBit s.cr k
    done (.crand d a b) (x && y) ∧ done (.cror d a b) (x || y) ∧ done (.crxor d a b) (x != y) ∧
    done (.crnand d a b) (!(x && y)) ∧ done (.crnor d a b) (!(x || y)) ∧ done (.creqv d a b) (x == y) ∧
    done (.crandc d a b) (x && !y) ∧ done (.crorc d a b) (x || !y) ∧
    ∃ t, exec (.mcrf fD fS) s = .next t ∧ t = { s with cr := t.cr, pc := s.pc + 4 } ∧
      s.crFieldIs t fD (beBit s.cr (4 * fS.toNat)) (beBit s.cr (4 * fS.toNat + 1)) (beBit s.cr (4 * fS.toNat + 2))
        (beBit s.cr (4 * fS.toNat + 3))

/-- tw and twi: the trap is taken exactly when a selected condition holds. With the five conditions as comparisons
of integers, tw and twi take the trap program exception (offset 0x00700, SRR1[14], SRR0 = the address of the trap
instruction by D24, log entry 20) when a condition selected by TO holds, and otherwise only advance pc. (R640, R641,
R642, R767, 92_eei_decisions.md D24) -/
def Obligations.TrapInstructions : Prop :=
  ∀ (s : State) (cond : BitVec 5) (rA rB : Reg) (imm : BitVec 16),
    let met (x y : Int) (u v : Nat) : Prop :=
      (cond.getMsbD 0 = true ∧ x < y) ∨ (cond.getMsbD 1 = true ∧ y < x) ∨ (cond.getMsbD 2 = true ∧ x = y) ∨
      (cond.getMsbD 3 = true ∧ u < v) ∨ (cond.getMsbD 4 = true ∧ v < u)
    let a := s.readGpr rA
    let b := s.readGpr rB
    let c : Word := imm.signExtend 32
    let done (i : Instr) (p : Prop) : Prop :=
      (p → ∃ t, exec i s = .next t ∧ s.tookException t 0x00700 s.pc 0x00020000) ∧
      (¬p → exec i s = .next { s with pc := s.pc + 4 })
    done (.tw cond rA rB) (met a.toInt b.toInt a.toNat b.toNat) ∧
    done (.twi cond rA imm) (met a.toInt c.toInt a.toNat c.toNat)

/-- Taking an exception: what the entry saves and sets, the MSR after it, the machine check, and nothing else. The
entry operation writes SRR0 (the address given, word-aligned), SRR1 (MSR[16:31] and the information bits), MSR and
pc (the vector with the prefix MSR[IP] chooses); it ends the halted state; every other register and memory stay.
After it every MSR bit of Table 4-5 has the value of the row "all but machine check": POW, EE, PR, FP, FE0, SE, BE,
FE1, IR, DR and RI are 0, ILE, ME and IP are kept, LE is ILE; PM (bit 29) is kept, which is not in the table but
decision D26 and log entry 46 (DESIGN CHOICE). A machine check entry does the same with ME = 0 too. (R111, R733,
R736, R740, R741, R748, R863, 92_eei_decisions.md D26) -/
def Obligations.ExceptionEntry : Prop :=
  ∀ (s : State) (off srr0 info : Word) (c : McCause),
    let row (t : State) (me : Bool) : Prop :=
      (∀ k ∈ [13, 16, 17, 18, 20, 21, 22, 23, 26, 27, 30], beBit t.msr k = false) ∧
      (∀ k ∈ [15, 25, 29], beBit t.msr k = beBit s.msr k) ∧ beBit t.msr 19 = me ∧ beBit t.msr 31 = beBit s.msr 15
    s.tookException (s.takeException off srr0 info) off srr0 info ∧
    row (s.takeException off srr0 info) (beBit s.msr 19) ∧ row (s.takeMachineCheck c) false

/-- sc takes the system call exception; rfi returns, and undoes an exception entry. sc takes the exception of offset
0x00C00 with SRR0 = the next instruction. rfi in supervisor mode puts SRR1[16:31] without the reserved bits 24 and
28 in the MSR, keeps MSR[0:15], goes on at SRR0 with its low two bits cleared and changes nothing else, unless the
MSR it restores makes a pending floating-point enabled condition an exception (R770). An entry followed by rfi
restores MSR[15:31] and continues at the saved address. (R654, R655, R736, R770, R772, 92_eei_decisions.md D21) -/
def Obligations.SystemCallAndReturn : Prop :=
  (∀ s : State, ∃ t, exec .sc s = .next t ∧ s.tookException t 0x00C00 (s.pc + 4) 0) ∧
  (∀ s : State, s.msrPR = false →
    let t : State := { s with
      msr := (s.msr &&& 0xFFFF0000) ||| (s.exc.srr1 &&& 0x0000FF77), pc := s.exc.srr0 &&& 0xFFFFFFFC }
    ((beBit t.msr 20 || beBit t.msr 23) && beBit s.fpscr 1) = false → exec .rfi s = .next t) ∧
  ∀ (s : State) (off srr0 info : Word), s.reservedZero → beBit s.fpscr 1 = false → info &&& 0x0000FFFF = 0 →
    exec .rfi (s.takeException off srr0 info) = .next { s.takeException off srr0 info with
      msr := s.msr &&& 0x0001FFFF, pc := srr0 &&& 0xFFFFFFFC }

/-- What is privileged in user mode, and what is no instruction, takes the program exception and does nothing else.
With MSR[PR] = 1, rfi, mtmsr, mfmsr, mtsr, mtsrin, mfsr, mfsrin, tlbie, tlbsync, dcbi, and mtspr and mfspr of any
SPR number with spr[0] = 1 take the program exception with SRR1[13] and SRR0 = pc, whatever their operands. A
fetched word the decoder rejects, an SPR number outside the list of R660 (for mfspr also the two time base write
ports) when the privilege test passes, and an mftb number other than 268 and 269 take the program exception: offset
0x00700, SRR0 = pc, SRR1[12] set; nothing else changes. (R286, R298, R650, R660, R662, R668, R735, R766,
92_eei_decisions.md D22) -/
def Obligations.PrivilegedAndIllegal : Prop :=
  (∀ (s : State) (r q : Reg) (n : BitVec 4) (spr : BitVec 10) (rc : Bool) (i : Instr), s.msrPR = true →
    i ∈ [.rfi, .mtmsr r, .mfmsr r, .mtsr r n, .mtsrin r q, .mfsr r n, .mfsrin r q, .tlbie r, .tlbsync, .dcbi r q] ∨
      (spr.getLsbD 4 = true ∧ i ∈ [.mtspr r spr rc, .mfspr r spr rc]) →
    ∃ t, exec i s = .next t ∧ s.tookException t 0x00700 s.pc 0x00040000) ∧
  ∀ s : State,
    let illegal (r : Result) : Prop := ∃ t, r = .next t ∧ s.tookException t 0x00700 s.pc 0x00080000
    (∀ (w : Word) (e : DecodeError), decode w = .error e → illegal (s.runWord w)) ∧
    ∀ (r : Reg) (n : BitVec 10) (rc : Bool),
      (¬(s.msrPR = true ∧ n.getLsbD 4 = true) → n.toNat ∉ writableSprs → illegal (exec (.mtspr r n rc) s)) ∧
      (¬(s.msrPR = true ∧ n.getLsbD 4 = true) → n.toNat ∉ readableSprs → illegal (exec (.mfspr r n rc) s)) ∧
      (n ≠ 268 → n ≠ 269 → illegal (exec (.mftb r n) s))

/-- The trace exception: which completed instructions take it, and what SRR1 says of them. An instruction that
completed with no exception takes the trace exception (offset 0x00D00, SRR0 = the next instruction to execute)
exactly when MSR[SE] was 1 before it and it is not rfi, or MSR[BE] was 1 and it is a branch. SRR1 has 010 in bits
0:2 and marks a load, a store, lswx and stswx, a write of SDR1, EAR, HID0, PIR, a BAT or a segment register, and a
taken branch; instructions are classed by their opcodes. One that took an exception is not traced. The address of
each instruction that completed is noted for SIA, sc and a privileged mtmsr or rfi that ends in the floating-point
enabled exception among them. Which MSR is tested, what counts as a branch, a load and a store, and that an
instruction that took an exception is not traced are the model's choice (log entry 43, D30); so is the address noted
after sc, mtmsr and rfi (log entry 36). Two other endings that complete an instruction note it where they are taken:
FpEnabledException and DirectStoreAccesses. (R735, R774, R775, R846) -/
def Obligations.TraceException : Prop :=
  ∀ (s t : State) (i : Instr),
    let done : State := { t with lastIa := s.pc }
    let bit (b : Bool) (w : Word) : Word := if b then w else 0
    let traced := (beBit s.msr 21 && i != .rfi) || (beBit s.msr 22 && (s.branches i).isSome)
    let info : Word := 0x40000000 ||| bit (loadsStorage i) 0x10000000 ||| bit (storesStorage i) 0x08000000 |||
      bit (stringIndexed i) 0x00200000 ||| bit (writesMmu i) 0x00100000 ||| bit (s.branches i == some true) 0x00080000
    (t.took = false → traced = false → t.complete s i = done) ∧
    (t.took = false → traced = true → done.tookException (t.complete s i) 0x00D00 t.pc info) ∧
    let completes : Prop := i = .sc ∨ (beBit s.msr 17 = false ∧ (i = .rfi ∨ ∃ r, i = .mtmsr r))
    (t.took = true → (completes → t.complete s i = done) ∧ (¬completes → t.complete s i = t))

/-- The floating-point enabled exception, at the end of an instruction and after mtmsr and rfi. With MSR[FP] = 1 and
MSR[FE0] or MSR[FE1] set, an instruction of primary opcode 59 or 63 does what it does with both clear, and then, if
FPSCR[FEX] = 1, takes the program exception with SRR1[11] and SRR0 = pc (in every mode: precise, D29, log entry 44)
and otherwise goes on; taking it, it has completed (R429), and its address is noted for SIA (the model's choice, log
entry 36). rfi and mtmsr in supervisor mode take the same exception with SRR0 = the next instruction if the MSR they
leave has FE0 or FE1 while FEX = 1. (R428, R429, R655, R656, R770, 92_eei_decisions.md D29) -/
def Obligations.FpEnabledException : Prop :=
  ∀ (s : State) (i : Instr) (r : Reg),
    let fe (w : Word) : Bool := beBit w 20 || beBit w 23
    let enabled (t : State) (o : Result) : Prop :=
      ∃ v, o = .next v ∧ t.tookException v 0x00700 t.pc 0x00100000
    let noted (t : State) : State := { t with msr := s.msr, pc := s.pc, lastIa := s.pc }
    let back : State := { s with
      msr := (s.msr &&& 0xFFFF0000) ||| (s.exc.srr1 &&& 0x0000FF77), pc := s.exc.srr0 &&& 0xFFFFFFFC }
    let moved : State := { s with msr := s.readGpr r &&& 0x0005FF77, pc := s.pc + 4 }
    (primary (encode i) = 59 ∨ primary (encode i) = 63 → beBit s.msr 18 = true → fe s.msr = true →
      ∃ t, exec i { s with msr := s.msr &&& 0xFFFFF6FF } = .next t ∧
        (beBit t.fpscr 1 = false → exec i s = .next { t with msr := s.msr }) ∧
        (beBit t.fpscr 1 = true → enabled (noted t) (exec i s))) ∧
    (s.msrPR = false → beBit s.fpscr 1 = true → fe back.msr = true → enabled back (exec .rfi s)) ∧
    (s.msrPR = false → beBit s.fpscr 1 = true → fe moved.msr = true → enabled moved (exec (.mtmsr r) s))

/-- The instruction address breakpoint and the instruction storage exception. At a step whose boundary takes no
exception, with no implicit branch made before (log entry 18): if the address at pc translates, and IABR[30] = 1,
IABR[0:29] = pc[0:29] and IABR[31] = MSR[IR], the step takes the exception of offset 0x01300 with SRR0 = pc, nothing
executed and nothing fetched. If it does not translate, the step takes the ISI, offset 0x00400, SRR0 = pc, with
SRR1[1] for a page fault, SRR1[4] for protection, SRR1[3] otherwise; a segment with T = 1 or N = 1 that no IBAT
covers ends so with SRR1[3]. What the translation changed is storage only. (R142, R221, R223, R735, R755, R789,
R790, 92_eei_decisions.md D26) -/
def Obligations.FetchExceptions : Prop :=
  ∀ s u v : State, s.latches.checkstop = false → s.boundary = (u, false) → u.moved = false →
    (∀ pa wimg, u.translate .fetch u.pc = (.mapped pa wimg, v) → beBit u.cfg.iabr 30 = true →
      u.cfg.iabr &&& 0xFFFFFFFC = u.pc &&& 0xFFFFFFFC → beBit u.cfg.iabr 31 = beBit u.msr 26 →
      u.onlyStorage v ∧ ∃ t, step s = .next t ∧ v.tookException t 0x01300 u.pc 0) ∧
    (∀ f, u.translate .fetch u.pc = (.fail f, v) → f ∈ [.pageFault, .protection, .noExecute] →
      u.onlyStorage v ∧ ∃ t, step s = .next t ∧ v.tookException t 0x00400 u.pc
        (if f = .pageFault then 0x40000000 else if f = .protection then 0x08000000 else 0x10000000)) ∧
    (beBit u.msr 26 = true → batHits u.mmu.ibat u.msrPR u.pc = [] → batIllegal u.mmu.ibat u.msrPR u.pc = false →
      beBit (u.readSr (u.pc.extractLsb' 28 4)) 0 = true ∨ beBit (u.readSr (u.pc.extractLsb' 28 4)) 3 = true →
      ∃ t, step s = .next t ∧ u.tookException t 0x00400 u.pc 0x10000000)

/-- mfmsr, mfcr, mtcrf, mcrxr, mftb, mtmsr and the segment register moves: value, frame, completion. mfcr and mftb
in any mode and mfmsr in supervisor mode write the register's value to rD; mtcrf writes exactly the CR fields its
mask selects; mcrxr copies XER[0:3] to a CR field and clears them; mtmsr in supervisor mode, where it makes no
floating-point enabled condition an exception, writes the MSR with its reserved bits 0. Nothing else but pc changes.
In supervisor mode mtsr and mtsrin write one segment register (bits 4:7 of a memory segment are reserved and read
0), mfsr and mfsrin read one; the other segment registers and everything else but pc and rD stay. (R656, R657, R658,
R659, R661, R668, R220, R221, R696, R697, R698, R699) -/
def Obligations.StatusAndSegmentMoves : Prop :=
  (∀ (s : State) (r : Reg) (crm : BitVec 8) (fD : BitVec 3),
    let put (v : Word) : State := { s with gpr := s.gpr.set r.toNat v r.isLt, pc := s.pc + 4 }
    exec (.mfcr r) s = .next (put s.cr) ∧
    exec (.mftb r 268) s = .next (put (BitVec.ofNat 32 s.tb.toNat)) ∧
    exec (.mftb r 269) s = .next (put (BitVec.ofNat 32 (s.tb.toNat / 4294967296))) ∧
    (s.msrPR = false → exec (.mfmsr r) s = .next (put s.msr)) ∧
    (∃ t, exec (.mtcrf r crm) s = .next t ∧ t = { s with cr := t.cr, pc := s.pc + 4 } ∧
      ∀ k, k < 32 → beBit t.cr k = if crm.getMsbD (k / 4) then beBit (s.readGpr r) k else beBit s.cr k) ∧
    (∃ t, exec (.mcrxr fD) s = .next t ∧ t = { s with cr := t.cr, xer := s.xer &&& 0x0FFFFFFF, pc := s.pc + 4 } ∧
      s.crFieldIs t fD (beBit s.xer 0) (beBit s.xer 1) (beBit s.xer 2) (beBit s.xer 3)) ∧
    (s.msrPR = false →
      let t : State := { s with msr := s.readGpr r &&& 0x0005FF77, pc := s.pc + 4 }
      ((beBit t.msr 20 || beBit t.msr 23) && beBit s.fpscr 1) = false →
      exec (.mtmsr r) s = .next t)) ∧
  ∀ (s : State) (r q : Reg) (n : BitVec 4), s.msrPR = false →
    let sel : BitVec 4 := (s.readGpr q).extractLsb' 28 4
    let v := s.readGpr r
    let w : Word := if beBit v 0 then v else v &&& 0xF0FFFFFF
    let written (t : State) (k : BitVec 4) : Prop :=
      t = { s with mmu := { s.mmu with sr := t.mmu.sr }, pc := s.pc + 4 } ∧ t.readSr k = w ∧
        ∀ j, j ≠ k → t.readSr j = s.readSr j
    (∃ t, exec (.mtsr r n) s = .next t ∧ written t n) ∧ (∃ t, exec (.mtsrin r q) s = .next t ∧ written t sel) ∧
    exec (.mfsr r n) s = .next { s with gpr := s.gpr.set r.toNat (s.readSr n) r.isLt, pc := s.pc + 4 } ∧
    exec (.mfsrin r q) s = .next { s with gpr := s.gpr.set r.toNat (s.readSr sel) r.isLt, pc := s.pc + 4 }

/-- mtspr then mfspr: what a special register holds after it was written, and completion of both. For every SPR
number the 604e has and a mode that may access it, mtspr and mfspr complete; a register read back holds the value
written with its reserved bits 0, PVR and HID1 what they held (R664, log entry 23), for SIA and SDA while
MMCR0[ENINT] = 0; LR, CTR and XER are accessible in user mode too. SPR 284 and 285 write the lower and the upper
half of the time base and leave the other half. Three registers read back more than their rows of the register list
say, the MODEL's choices: EAR[26:27] are storage (D10, log entry 8), PIR keeps all 32 bits (D3, log entry 8),
SRR0[30:31] read as written (D9, log entry 52). (R14, R34, R43, R52, R55, R660, R663, R664, R666, R667, R802,
92_eei_decisions.md D3, D9 and D10) -/
def Obligations.SprMovesComplete : Prop :=
  ∀ (s : State) (rS rD : Reg) (n : BitVec 10), s.msrPR = false ∨ n.getLsbD 4 = false → n.toNat ∈ writableSprs →
    let t := (s.writeSpr n.toNat (s.readGpr rS)).advance
    exec (.mtspr rS n false) s = .next t ∧
    (n = 284 → t = { s with
      tb := BitVec.ofNat 64 (s.tb.toNat / 4294967296 * 4294967296 + (s.readGpr rS).toNat), pc := s.pc + 4 }) ∧
    (n = 285 → t = { s with
      tb := BitVec.ofNat 64 ((s.readGpr rS).toNat * 4294967296 + s.tb.toNat % 4294967296), pc := s.pc + 4 }) ∧
    (n.toNat ∈ readableSprs → beBit s.pm.mmcr0 5 = false ∨ (n.toNat ≠ 955 ∧ n.toNat ≠ 959) →
      ∃ v, exec (.mfspr rD n false) t = .next v ∧ v.readGpr rD =
          (if n.toNat = 287 ∨ n.toNat = 1009 then (s.readSpr n.toNat).1 else s.readGpr rS &&& sprMask n.toNat))

/-- Special register moves: frames, and the invalidation that a write of HID0 makes. A mfspr that its mode permits
of a register other than SIA and SDA writes rD with the register's value, advances pc and changes nothing else. For
two different SPR numbers, the second readable and the first not MMCR0 (which governs SIA and SDA), writing the
first leaves what the second reads as; and a write changes no GPR, no FPR, no CR bit and no byte of memory. A write
of HID0 with ICFI (bit 20) and ICE (bit 16) set leaves the instruction cache empty, with DCFI (bit 21) and DCE (bit
17) set the data cache, modified data lost: memory stays; ICFI and DCFI read 0; without them the caches keep their
blocks. That an invalidation happens at once is log entry 49. (R30, R56, R163, R660, R663, R665, R666, R667) -/
def Obligations.SprFrames : Prop :=
  ((∀ (s : State) (rD : Reg) (n : BitVec 10), s.msrPR = false ∨ n.getLsbD 4 = false → n.toNat ∈ readableSprs →
    n.toNat ≠ 955 → n.toNat ≠ 959 →
    ∃ v, s.readSpr n.toNat = (v, s) ∧
      exec (.mfspr rD n false) s = .next { s with gpr := s.gpr.set rD.toNat v rD.isLt, pc := s.pc + 4 }) ∧
  ∀ (s : State) (v : Word) (n : Nat), n ∈ writableSprs →
    (∀ m ∈ readableSprs, n ≠ m → n ≠ 952 → ((s.writeSpr n v).readSpr m).1 = (s.readSpr m).1) ∧
    (s.writeSpr n v).gpr = s.gpr ∧ (s.writeSpr n v).fpr = s.fpr ∧ (s.writeSpr n v).cr = s.cr ∧
    (s.writeSpr n v).mem = s.mem ∧ (s.writeSpr n v).msr = s.msr ∧ (s.writeSpr n v).fpscr = s.fpscr) ∧
  ∀ (s : State) (v : Word),
    let t := s.writeSpr 1008 v
    t.icache = (if beBit v 20 && beBit v 16 then [] else s.icache) ∧
    t.dcache = (if beBit v 21 && beBit v 17 then [] else s.dcache) ∧ beBit t.cfg.hid0 20 = false ∧
    beBit t.cfg.hid0 21 = false ∧ t = { s with icache := t.icache, dcache := t.dcache, cfg := t.cfg }

/-- tlbie, tlbsync, sync, eieio, isync: effect, frame, completion. In supervisor mode tlbie leaves in both TLBs
exactly the entries of other sets than EA[14:19] and announces itself on the bus with GPR[rB][12:19]; tlbsync, and
in any mode sync and eieio, put their operation on the bus; isync only advances pc. The operations are global
address-only tenures with WIM = xx1. No register, no byte of memory changes. No rule gives the address that sync,
eieio and tlbsync show: 0 is the MODEL's (log entries 35 and 48, DESIGN CHOICE), and so are the W and I bits 00.
(R194, R245, R246, R672, R673, R674, R700, R701) -/
def Obligations.TlbAndOrderingInstructions : Prop :=
  ∀ (s : State) (rB : Reg),
    let op (k : BusKind) (a : Word) : BusOp := .tenure k a 0b001 true 0
    let flushed (l : List TlbEntry) : List TlbEntry := l.filter fun e => e.index != (s.readGpr rB).extractLsb' 12 6
    let t : State := { s with
      itlb := flushed s.itlb
      dtlb := flushed s.dtlb
      pc := s.pc + 4
      busLog := op .tlbInvalidate (s.readGpr rB &&& 0x000FF000) :: s.busLog }
    (s.msrPR = false → exec (.tlbie rB) s = .next t) ∧
    (∀ e, e ∈ t.itlb ↔ e ∈ s.itlb ∧ e.index ≠ (s.readGpr rB).extractLsb' 12 6) ∧
    (∀ e, e ∈ t.dtlb ↔ e ∈ s.dtlb ∧ e.index ≠ (s.readGpr rB).extractLsb' 12 6) ∧
    (s.msrPR = false → exec .tlbsync s = .next { s with pc := s.pc + 4, busLog := op .tlbSync 0 :: s.busLog }) ∧
    exec (.sync false) s = .next { s with pc := s.pc + 4, busLog := op .sync 0 :: s.busLog } ∧
    exec .eieio s = .next { s with pc := s.pc + 4, busLog := op .eieio 0 :: s.busLog } ∧
    exec .isync s = .next { s with pc := s.pc + 4 }

/-- The integer loads: value, base register of the update forms, frame, completion. An operand that is one access to
plain storage (its address translates with nothing changed, RAM or ROM is there, its storage is cacheable or the
cache is off, the memory system is sound) is loaded: lbz, lhz, lha, lwz, their indexed forms and lhbrx, lwbrx
complete, rD gets the value in the current byte order (zero-extended, sign-extended, byte-reversed), every other
register and every byte a data access sees stay. With rA not 0 and not rD, the update forms of the loads of plain
storage write the value to rD and the effective address to rA; every other register and every byte a data access
sees stay. (R134, R136, R140, R500, R501, R502, R510, R511 to R517 of 42_loadstore.md, R518, R519 to R525 of
42_loadstore.md, R546, R547) -/
def Obligations.LoadsOfPlainStorage : Prop :=
  (∀ (s : State) (rD rA rB : Reg) (d : BitVec 16) (pa : Word) (wimg : BitVec 4),
    let ea := (if rA = 0 then 0 else s.readGpr rA) + d.signExtend 32
    let ex := (if rA = 0 then 0 else s.readGpr rA) + s.readGpr rB
    let done (i : Instr) (v : Word) : Prop := ∃ t, exec i s = .next t ∧ s.accessed t [rD] ∧ t.readGpr rD = v
    let val (n : Nat) : Nat := natOfBytes (s.operandBytes pa n)
    let rev (n : Nat) : Nat := natOfBytes (s.operandBytes pa n).reverse
    (s.plainOperand .load ea pa wimg 1 → done (.lbz rD rA d) (BitVec.ofNat 32 (val 1))) ∧
    (s.plainOperand .load ea pa wimg 2 → done (.lhz rD rA d) (BitVec.ofNat 32 (val 2)) ∧
      done (.lha rD rA d) ((BitVec.ofNat 16 (val 2)).signExtend 32)) ∧
    (s.plainOperand .load ea pa wimg 4 → done (.lwz rD rA d) (BitVec.ofNat 32 (val 4))) ∧
    (s.plainOperand .load ex pa wimg 1 → done (.lbzx rD rA rB false) (BitVec.ofNat 32 (val 1))) ∧
    (s.plainOperand .load ex pa wimg 2 → done (.lhzx rD rA rB false) (BitVec.ofNat 32 (val 2)) ∧
      done (.lhax rD rA rB false) ((BitVec.ofNat 16 (val 2)).signExtend 32) ∧
      done (.lhbrx rD rA rB false) (BitVec.ofNat 32 (rev 2))) ∧
    (s.plainOperand .load ex pa wimg 4 → done (.lwzx rD rA rB false) (BitVec.ofNat 32 (val 4)) ∧
      done (.lwbrx rD rA rB false) (BitVec.ofNat 32 (rev 4)))) ∧
  ∀ (s : State) (rD rA rB : Reg) (d : BitVec 16) (pa : Word) (wimg : BitVec 4), rA ≠ 0 → rA ≠ rD →
    let ea := s.readGpr rA + d.signExtend 32
    let ex := s.readGpr rA + s.readGpr rB
    let done (i : Instr) (v e : Word) : Prop :=
      ∃ t, exec i s = .next t ∧ s.accessed t [rD, rA] ∧ t.readGpr rD = v ∧ t.readGpr rA = e
    let val (n : Nat) : Nat := natOfBytes (s.operandBytes pa n)
    (s.plainOperand .load ea pa wimg 1 → done (.lbzu rD rA d) (BitVec.ofNat 32 (val 1)) ea) ∧
    (s.plainOperand .load ea pa wimg 2 → done (.lhzu rD rA d) (BitVec.ofNat 32 (val 2)) ea ∧
      done (.lhau rD rA d) ((BitVec.ofNat 16 (val 2)).signExtend 32) ea) ∧
    (s.plainOperand .load ea pa wimg 4 → done (.lwzu rD rA d) (BitVec.ofNat 32 (val 4)) ea) ∧
    (s.plainOperand .load ex pa wimg 1 → done (.lbzux rD rA rB false) (BitVec.ofNat 32 (val 1)) ex) ∧
    (s.plainOperand .load ex pa wimg 2 → done (.lhzux rD rA rB false) (BitVec.ofNat 32 (val 2)) ex ∧
      done (.lhaux rD rA rB false) ((BitVec.ofNat 16 (val 2)).signExtend 32) ex) ∧
    (s.plainOperand .load ex pa wimg 4 → done (.lwzux rD rA rB false) (BitVec.ofNat 32 (val 4)) ex)

/-- The integer stores: the bytes stored, base register of the update forms, frame, completion. A store whose
operand is one access to plain storage completes: the low byte, halfword or word of rS (reversed for sthbrx and
stwbrx) is what data accesses then see at the operand's physical addresses, every other byte and every register but
pc stay. With rA not 0 the update forms of the stores to plain storage store the value rS had, also when rS is rA,
and write the effective address to rA; every other byte and register stay. (R134, R136, R141, R500, R501, R502,
R530, R531 to R537 of 42_loadstore.md, R538, R539 to R541 of 42_loadstore.md, R548, R549) -/
def Obligations.StoresToPlainStorage : Prop :=
  (∀ (s : State) (rS rA rB : Reg) (d : BitVec 16) (pa : Word) (wimg : BitVec 4),
    let ea := (if rA = 0 then 0 else s.readGpr rA) + d.signExtend 32
    let ex := (if rA = 0 then 0 else s.readGpr rA) + s.readGpr rB
    let bytes (n : Nat) : List Byte := bytesOfNat n (s.readGpr rS).toNat
    let done (i : Instr) (bs : List Byte) : Prop := ∃ t, exec i s = .next t ∧ s.stored t [] pa bs
    (s.plainOperand .store ea pa wimg 1 → done (.stb rS rA d) (bytes 1)) ∧
    (s.plainOperand .store ea pa wimg 2 → done (.sth rS rA d) (bytes 2)) ∧
    (s.plainOperand .store ea pa wimg 4 → done (.stw rS rA d) (bytes 4)) ∧
    (s.plainOperand .store ex pa wimg 1 → done (.stbx rS rA rB false) (bytes 1)) ∧
    (s.plainOperand .store ex pa wimg 2 → done (.sthx rS rA rB false) (bytes 2) ∧
      done (.sthbrx rS rA rB false) (bytes 2).reverse) ∧
    (s.plainOperand .store ex pa wimg 4 → done (.stwx rS rA rB false) (bytes 4) ∧
      done (.stwbrx rS rA rB false) (bytes 4).reverse)) ∧
  ∀ (s : State) (rS rA rB : Reg) (d : BitVec 16) (pa : Word) (wimg : BitVec 4), rA ≠ 0 →
    let ea := s.readGpr rA + d.signExtend 32
    let ex := s.readGpr rA + s.readGpr rB
    let bytes (n : Nat) : List Byte := bytesOfNat n (s.readGpr rS).toNat
    let done (i : Instr) (bs : List Byte) (e : Word) : Prop :=
      ∃ t, exec i s = .next t ∧ s.stored t [rA] pa bs ∧ t.readGpr rA = e
    (s.plainOperand .store ea pa wimg 1 → done (.stbu rS rA d) (bytes 1) ea) ∧
    (s.plainOperand .store ea pa wimg 2 → done (.sthu rS rA d) (bytes 2) ea) ∧
    (s.plainOperand .store ea pa wimg 4 → done (.stwu rS rA d) (bytes 4) ea) ∧
    (s.plainOperand .store ex pa wimg 1 → done (.stbux rS rA rB false) (bytes 1) ex) ∧
    (s.plainOperand .store ex pa wimg 2 → done (.sthux rS rA rB false) (bytes 2) ex) ∧
    (s.plainOperand .store ex pa wimg 4 → done (.stwux rS rA rB false) (bytes 4) ex)

/-- Invalid forms of loads and stores complete with the registers the spec leaves undefined free. Loads with update
with rA = 0 or rA = rD, and stores with update with rA = 0, of plain storage complete: rA (and rD if they are one)
is free, rD otherwise gets the value, the bytes stored are those of the valid form, every other register and byte
stays. With bare data accesses lmw with rA among the registers loaded, lswi likewise, and lswx of no bytes complete,
changing only the registers they load (log entry 30). (R291, R502, R551, R555, R556, R557,
93_implementation_defined.md) -/
def Obligations.InvalidFormsComplete : Prop :=
  ∀ (s : State) (r rA rB : Reg) (d : BitVec 16) (nb : BitVec 5) (pa : Word) (wimg : BitVec 4),
    let base : Word := if rA = 0 then 0 else s.readGpr rA
    let ea := base + d.signExtend 32
    let ex := base + s.readGpr rB
    let val (n : Nat) : Nat := natOfBytes (s.operandBytes pa n)
    let loaded (i : Instr) (v : Word) : Prop := ∃ t, exec i s = .next t ∧
      s.accessed { t with fresh := s.fresh } [r, rA] ∧ (r ≠ rA → t.readGpr r = v)
    let kept (i : Instr) (n : Nat) : Prop := ∃ t, exec i s = .next t ∧
      s.stored { t with fresh := s.fresh } [rA] pa (bytesOfNat n (s.readGpr r).toNat)
    let half : Word := (BitVec.ofNat 16 (val 2)).signExtend 32
    let regsOnly (t : State) (k : Nat) : Prop :=
      t = { s with gpr := t.gpr, pc := s.pc + 4, busLog := t.busLog, fresh := t.fresh } ∧
      ∀ q, (∀ j < k, q ≠ r + BitVec.ofNat 5 j) → t.readGpr q = s.readGpr q
    (rA = 0 ∨ rA = r →
      (s.plainOperand .load ea pa wimg 1 → loaded (.lbzu r rA d) (BitVec.ofNat 32 (val 1))) ∧
      (s.plainOperand .load ea pa wimg 2 → loaded (.lhzu r rA d) (BitVec.ofNat 32 (val 2)) ∧
        loaded (.lhau r rA d) half) ∧
      (s.plainOperand .load ea pa wimg 4 → loaded (.lwzu r rA d) (BitVec.ofNat 32 (val 4))) ∧
      (s.plainOperand .load ex pa wimg 1 → loaded (.lbzux r rA rB false) (BitVec.ofNat 32 (val 1))) ∧
      (s.plainOperand .load ex pa wimg 2 → loaded (.lhzux r rA rB false) (BitVec.ofNat 32 (val 2)) ∧
        loaded (.lhaux r rA rB false) half) ∧
      (s.plainOperand .load ex pa wimg 4 → loaded (.lwzux r rA rB false) (BitVec.ofNat 32 (val 4)))) ∧
    (rA = 0 →
      (s.plainOperand .store ea pa wimg 1 → kept (.stbu r rA d) 1) ∧
      (s.plainOperand .store ea pa wimg 2 → kept (.sthu r rA d) 2) ∧
      (s.plainOperand .store ea pa wimg 4 → kept (.stwu r rA d) 4) ∧
      (s.plainOperand .store ex pa wimg 1 → kept (.stbux r rA rB false) 1) ∧
      (s.plainOperand .store ex pa wimg 2 → kept (.sthux r rA rB false) 2) ∧
      (s.plainOperand .store ex pa wimg 4 → kept (.stwux r rA rB false) 4)) ∧
    (s.bareData → r ≤ rA → ea.toNat % 4 = 0 →
      ∃ t, exec (.lmw r rA d) s = .next t ∧ regsOnly t (32 - r.toNat)) ∧
    (s.bareData → inRegRange r rA (stringImmRegs nb) = true → stringCrosses base (stringImm nb) = false →
      ∃ t, exec (.lswi r rA nb false) s = .next t ∧ regsOnly t (stringImmRegs nb)) ∧
    (s.msrLE = false → s.xer.toNat % 128 = 0 → ∃ t, exec (.lswx r rA rB false) s = .next t ∧ regsOnly t 1)

/-- Bit 31 set where it must be 0 changes nothing but CR0, which is free. For every indexed integer or floating-
point load or store, the string instructions, lwarx, sync and mfspr, and mtspr of a register that cannot move the
instruction stream: if the form with bit 31 = 0 completes or takes an exception, the form with bit 31 = 1 does the
same, and the new states differ at most in CR0 and the MODEL's count of free values (log entry 6). For stwcx. the
same holds with bit 31 = 0 in place of 1. (R293, R295, R503, R671) -/
def Obligations.RecordBitFreesCr0 : Prop :=
  ∀ (s t : State) (r rA rB : Reg) (n : BitVec 10),
    let same (i : Instr) : Prop := ∃ u, exec i s = .next u ∧ u = { t with cr := u.cr, fresh := u.fresh } ∧
      ∀ k, 4 ≤ k → beBit u.cr k = beBit t.cr k
    (∀ f ∈ [Instr.lbzx r rA rB, .lbzux r rA rB, .lhzx r rA rB, .lhzux r rA rB, .lhax r rA rB, .lhaux r rA rB,
        .lwzx r rA rB, .lwzux r rA rB, .stbx r rA rB, .stbux r rA rB, .sthx r rA rB, .sthux r rA rB, .stwx r rA rB,
        .stwux r rA rB, .lhbrx r rA rB, .lwbrx r rA rB, .sthbrx r rA rB, .stwbrx r rA rB, .lswi r rA rB,
        .lswx r rA rB, .stswi r rA rB, .stswx r rA rB, .lfsx r rA rB, .lfsux r rA rB, .lfdx r rA rB, .lfdux r rA rB,
        .stfsx r rA rB, .stfsux r rA rB, .stfdx r rA rB, .stfdux r rA rB, .stfiwx r rA rB, .lwarx r rA rB, .sync,
        .mfspr r n], exec (f false) s = .next t → same (f true)) ∧
    (movesFetch n.toNat = false → exec (.mtspr r n false) s = .next t → same (.mtspr r n true)) ∧
    (exec (.stwcxRec r rA rB true) s = .next t → same (.stwcxRec r rA rB false))

/-- lmw, lswi, lswx, and unaligned lwz and lwzx: registers loaded, frame, completion. With data accesses that go
straight to memory (no translation, data cache off, big-endian, no breakpoint) the valid forms of lmw, lswi and lswx
that pass their alignment test complete: register rD + j gets bytes 4j to 4j + 3, zeros filling the last register,
the register numbers wrapping for the string forms; the other registers and memory stay. lwz and lwzx at any
address, aligned or not, do the same with four bytes and one register. (R143, R550, R551, R555, R556, R557, R154,
R522, R523) -/
def Obligations.MultipleAndStringLoads : Prop :=
  ∀ (s : State) (rD rA rB : Reg) (d : BitVec 16) (nb : BitVec 5), s.bareData →
    let base : Word := if rA = 0 then 0 else s.readGpr rA
    let n := if nb = 0 then 32 else nb.toNat
    let m := s.xer.toNat % 128
    (rA < rD → (base + d.signExtend 32).toNat % 4 = 0 →
      ∃ t, exec (.lmw rD rA d) s = .next t ∧ s.loadedRegs t rD (base + d.signExtend 32) (4 * (32 - rD.toNat))) ∧
    (stringCrosses base n = false → inRegRange rD rA ((n + 3) / 4) = false →
      ∃ t, exec (.lswi rD rA nb false) s = .next t ∧ s.loadedRegs t rD base n) ∧
    (0 < m → stringCrosses (base + s.readGpr rB) m = false → inRegRange rD rA ((m + 3) / 4) = false →
      inRegRange rD rB ((m + 3) / 4) = false →
      ∃ t, exec (.lswx rD rA rB false) s = .next t ∧ s.loadedRegs t rD (base + s.readGpr rB) m) ∧
    (∃ t, exec (.lwz rD rA d) s = .next t ∧ s.loadedRegs t rD (base + d.signExtend 32) 4) ∧
    ∃ t, exec (.lwzx rD rA rB false) s = .next t ∧ s.loadedRegs t rD (base + s.readGpr rB) 4

/-- stmw, stswi, stswx, and unaligned stw and stwx: bytes stored, frame, completion. With data accesses that go
straight to memory, stmw, stswi and stswx that pass their alignment test complete: byte k of memory from the
effective address on is byte k mod 4 of register rS + k div 4, exactly n bytes are written, and no register but pc
changes. stw and stwx at any address, aligned or not, do the same with four bytes. (R143, R550, R552, R555, R558,
R559, R154, R538, R539) -/
def Obligations.MultipleAndStringStores : Prop :=
  ∀ (s : State) (rS rA rB : Reg) (d : BitVec 16) (nb : BitVec 5), s.bareData →
    let base : Word := if rA = 0 then 0 else s.readGpr rA
    let n := if nb = 0 then 32 else nb.toNat
    let m := s.xer.toNat % 128
    ((base + d.signExtend 32).toNat % 4 = 0 →
      ∃ t, exec (.stmw rS rA d) s = .next t ∧ s.storedRegs t rS (base + d.signExtend 32) (4 * (32 - rS.toNat))) ∧
    (stringCrosses base n = false → ∃ t, exec (.stswi rS rA nb false) s = .next t ∧ s.storedRegs t rS base n) ∧
    (stringCrosses (base + s.readGpr rB) m = false →
      ∃ t, exec (.stswx rS rA rB false) s = .next t ∧ s.storedRegs t rS (base + s.readGpr rB) m) ∧
    (∃ t, exec (.stw rS rA d) s = .next t ∧ s.storedRegs t rS (base + d.signExtend 32) 4) ∧
    ∃ t, exec (.stwx rS rA rB false) s = .next t ∧ s.storedRegs t rS (base + s.readGpr rB) 4

/-- The alignment tests: who takes the alignment exception, and what it leaves. These take the alignment exception
(offset 0x00600, SRR0 = pc, DAR = the effective address, DSISR as R761 gives it but for its undefined bits, log
entry 28), and no GPR, no FPR, no byte of memory, no reservation changes: lmw and stmw at an address that is no
multiple of 4 or in little-endian mode; the string instructions in little-endian mode (stswx with no byte to store
too, log entry 42) or across the boundary of R150 g; lwarx, stwcx., eciwx and ecowx at an address that is no
multiple of 4; with MSR[FP] = 1 every floating-point load and store at an address that is no multiple of 4 or in a
direct-store segment; dcbz to storage that may be written where W or I is 1, the data cache is off or locked. (R150,
R253, R550, R555, R559, R565, R670, R671, R690, R761, R762) -/
def Obligations.MisalignedAccessesTrap : Prop :=
  ∀ (s : State) (r rA rB : Reg) (d : BitVec 16) (nb : BitVec 5) (rc : Bool),
    let base : Word := if rA = 0 then 0 else s.readGpr rA
    let ea := base + d.signExtend 32
    let ex := base + s.readGpr rB
    let n := if nb = 0 then 32 else nb.toNat
    let m := s.xer.toNat % 128
    let traps (i : Instr) (f : AlignForm) (a : Word) : Prop := ∃ t free k, exec i s = .next t ∧ State.tookException
      { s with exc := { s.exc with dsisr := alignDsisr (encode i) f free, dar := a }, fresh := k } t 0x00600 s.pc 0
    (ea.toNat % 4 ≠ 0 ∨ s.msrLE = true → traps (.lmw r rA d) .whole ea ∧ traps (.stmw r rA d) .noBase ea) ∧
    (stringCrosses base n = true ∨ s.msrLE = true →
      traps (.lswi r rA nb rc) .whole base ∧ traps (.stswi r rA nb rc) .noBase base) ∧
    (stringCrosses ex m = true ∨ s.msrLE = true →
      traps (.lswx r rA rB rc) .whole ex ∧ traps (.stswx r rA rB rc) .noBase ex) ∧
    (ex.toNat % 4 ≠ 0 → ∀ i ∈ [Instr.lwarx r rA rB rc, .stwcxRec r rA rB rc, .eciwx r rA rB, .ecowx r rA rB],
      traps i .noBase ex) ∧
    (s.msrFP = true → ea.toNat % 4 ≠ 0 ∨ (s.directSegment ea).isSome = true →
      (∀ i ∈ [Instr.lfs r rA d, .lfd r rA d, .stfs r rA d, .stfd r rA d], traps i .noBase ea) ∧
      ∀ i ∈ [Instr.lfsu r rA d, .lfdu r rA d, .stfsu r rA d, .stfdu r rA d], traps i .whole ea) ∧
    (s.msrFP = true → ex.toNat % 4 ≠ 0 ∨ (s.directSegment ex).isSome = true →
      (∀ i ∈ [Instr.lfsx r rA rB rc, .lfdx r rA rB rc, .stfsx r rA rB rc, .stfdx r rA rB rc, .stfiwx r rA rB rc],
        traps i .noBase ex) ∧
      ∀ i ∈ [Instr.lfsux r rA rB rc, .lfdux r rA rB rc, .stfsux r rA rB rc, .stfdux r rA rB rc], traps i .whole ex) ∧
    ∀ (pa : Word) (wimg : BitVec 4), s.translate .cacheStore ex = (.mapped pa wimg, s) →
      wimg.getMsbD 0 = true ∨ wimg.getMsbD 1 = true ∨ s.dcacheOn = false ∨ s.dcacheLocked = true →
      traps (.dcbz rA rB) .noFields ex

/-- A load or store whose translation fails takes a DSI and changes no register. If the one part of the operand of
an integer or (with MSR[FP] = 1, at a multiple of 4) floating-point load or store, with or without update, has no
translation, or violates protection, or matches the data breakpoint, the instruction takes the DSI: offset 0x00300,
SRR0 = pc, DAR = the effective address, DSISR with the bit of the cause and bit 6 for a store. What the translation
itself may have changed is storage (TLBs, cache, R and C bits, the bus log): every GPR and FPR, rD and the base
register of an update form among them, MSR as SRR1 saves it and all else are those of the state before. (R238, R500,
R750, R751, R753, R791) -/
def Obligations.FailedDataAccessTakesDsi : Prop :=
  ∀ (s v : State) (r rA rB : Reg) (d : BitVec 16) (rc : Bool) (f : XFault),
    let base : Word := if rA = 0 then 0 else s.readGpr rA
    let ea := base + d.signExtend 32
    let ex := base + s.readGpr rB
    let cause : Word := if f = .pageFault then 0x40000000 else if f = .protection then 0x08000000 else 0x00400000
    let fails (i : Instr) (u : Use) (a : Word) (n : Nat) : Prop := oneAccess a n → s.translate u a = (.fail f, v) →
      s.onlyStorage v ∧ ∃ t, exec i s = .next t ∧ t.gpr = s.gpr ∧ t.fpr = s.fpr ∧ t.exc.srr1 = s.msr &&& 0x0000FFFF ∧
        State.tookException { v with
          exc := { v.exc with dsisr := if u.isStore then cause ||| 0x02000000 else cause, dar := a } } t 0x00300 s.pc 0
    f ∈ [.pageFault, .protection, .breakpoint] →
    (∀ p ∈ [(Instr.lbz r rA d, 1), (.lbzu r rA d, 1), (.lhz r rA d, 2), (.lhzu r rA d, 2), (.lha r rA d, 2),
      (.lhau r rA d, 2), (.lwz r rA d, 4), (.lwzu r rA d, 4)], fails p.1 .load ea p.2) ∧
    (∀ p ∈ [(Instr.lbzx r rA rB rc, 1), (.lbzux r rA rB rc, 1), (.lhzx r rA rB rc, 2), (.lhzux r rA rB rc, 2),
      (.lhax r rA rB rc, 2), (.lhaux r rA rB rc, 2), (.lwzx r rA rB rc, 4), (.lwzux r rA rB rc, 4),
      (.lhbrx r rA rB rc, 2), (.lwbrx r rA rB rc, 4)], fails p.1 .load ex p.2) ∧
    (∀ p ∈ [(Instr.stb r rA d, 1), (.stbu r rA d, 1), (.sth r rA d, 2), (.sthu r rA d, 2), (.stw r rA d, 4),
      (.stwu r rA d, 4)], fails p.1 .store ea p.2) ∧
    (∀ p ∈ [(Instr.stbx r rA rB rc, 1), (.stbux r rA rB rc, 1), (.sthx r rA rB rc, 2), (.sthux r rA rB rc, 2),
      (.stwx r rA rB rc, 4), (.stwux r rA rB rc, 4), (.sthbrx r rA rB rc, 2), (.stwbrx r rA rB rc, 4)],
      fails p.1 .store ex p.2) ∧
    (s.msrFP = true → ea.toNat % 4 = 0 →
      (∀ p ∈ [(Instr.lfs r rA d, 4), (.lfsu r rA d, 4), (.lfd r rA d, 8), (.lfdu r rA d, 8)],
        fails p.1 .fpLoad ea p.2) ∧
      ∀ p ∈ [(Instr.stfs r rA d, 4), (.stfsu r rA d, 4), (.stfd r rA d, 8), (.stfdu r rA d, 8)],
        fails p.1 .fpStore ea p.2) ∧
    (s.msrFP = true → ex.toNat % 4 = 0 →
      (∀ p ∈ [(Instr.lfsx r rA rB rc, 4), (.lfsux r rA rB rc, 4), (.lfdx r rA rB rc, 8), (.lfdux r rA rB rc, 8)],
        fails p.1 .fpLoad ex p.2) ∧
      ∀ p ∈ [(Instr.stfsx r rA rB rc, 4), (.stfsux r rA rB rc, 4), (.stfdx r rA rB rc, 8), (.stfdux r rA rB rc, 8),
        (.stfiwx r rA rB rc, 4)], fails p.1 .fpStore ex p.2)

/-- Direct-store accesses: the operations on the bus, the reply, errors, the instructions that may not be used
there. A data access with MSR[DR] = 1, no DBAT match and T = 1 is a direct-store access; that none is memory-forced,
as R168 would allow, is the model's choice (log entry 13). In big-endian mode with no breakpoint enabled, at a
multiple of 4: lwz and lwzu send a load start and a load last, stw and stwu a store last with the word, with the two
packets of R221; the data of a load are free. Without an error reply (a free value) they complete; with one they
take the DSI with DSISR[0], the load's target written, the base register of an update form not (R256 says that the
instruction completes: the model's choice, log entry 13), and the instruction's address noted for SIA (log entry
36). lwarx, stwcx., eciwx and ecowx (EAR[E] = 1) take the DSI with DSISR[5]; dcbt, dcbtst, dcbz, dcbst, dcbf, icbi
and in supervisor mode dcbi do nothing. The DSI of an access from T = 0 into T = 1 has exactly one cause bit of 0,
1, 4 and 5 (D27, the model's choice, log entry 47). (R155, R221, R250, R251, R252, R254, R255, R256, R257, R751,
R753) -/
def Obligations.DirectStoreAccesses : Prop :=
  (∀ (s : State) (a : Word), s.msrDR = true → batIllegal s.mmu.dbat s.msrPR a = false →
    batHits s.mmu.dbat s.msrPR a = [] → beBit (s.readSr (a.extractLsb' 28 4)) 0 = true →
    s.directSegment a = some (s.readSr (a.extractLsb' 28 4))) ∧
  (∀ (u : Use) (a : Word) (done : List Byte) (s : State), ∃ c t, s.onlyStorage t ∧
    c ∈ [(0x80000000 : Word), 0x40000000, 0x08000000, 0x04000000] ∧
    mixedDsi u a done s = .dsi done (c ||| (if u.isStore then 0x02000000 else 0)) a t) ∧
  ∀ (s : State) (r rA rB : Reg) (d : BitVec 16) (rc : Bool) (sr : Word), s.msrLE = false → s.cfg.dabr &&& 3 = 0 →
    let base : Word := if rA = 0 then 0 else s.readGpr rA
    let ea := base + d.signExtend 32
    let ex := base + s.readGpr rB
    let key : Bool := if beBit s.msr 17 then beBit sr 2 else beBit sr 1
    let op (code : BitVec 8) (bytes : List Byte) : BusOp := .directStore
      (0#2 ++ BitVec.ofBool key ++ sr.extractLsb' 4 25 ++ s.cfg.pir.extractLsb' 0 4) code
      (sr.extractLsb' 0 4 ++ ea.extractLsb' 0 28) 4 bytes
    let loaded (v : Word) : State := { s with
      gpr := s.gpr.set r.toNat v r.isLt, busLog := op 0x70 [] :: op 0x40 [] :: s.busLog, fresh := s.fresh + 2 }
    let sent : State := { s with
      busLog := op 0x30 (bytesOfNat 4 (s.readGpr r).toNat) :: s.busLog, fresh := s.fresh + 1 }
    let dsi (u : State) (bits a : Word) (o : Result) : Prop := ∃ t, o = .next t ∧
      State.tookException { u with exc := { u.exc with dsisr := bits, dar := a } } t 0x00300 s.pc 0
    let failed (u : State) (bits : Word) (o : Result) : Prop := dsi { u with lastIa := s.pc } bits ea o
    let based (u : State) : State := { u with gpr := u.gpr.set rA.toNat ea rA.isLt, pc := s.pc + 4 }
    (s.directSegment ea = some sr → ea.toNat % 4 = 0 → ∃ (v : Word) (err : Bool),
      (err = false → exec (.lwz r rA d) s = .next { loaded v with pc := s.pc + 4 } ∧
        (rA ≠ 0 → rA ≠ r → exec (.lwzu r rA d) s = .next (based (loaded v)))) ∧
      (err = true → failed (loaded v) 0x80000000 (exec (.lwz r rA d) s) ∧
        failed (loaded v) 0x80000000 (exec (.lwzu r rA d) s))) ∧
    (s.directSegment ea = some sr → ea.toNat % 4 = 0 → ∃ err : Bool,
      (err = false → exec (.stw r rA d) s = .next { sent with pc := s.pc + 4 } ∧
        (rA ≠ 0 → exec (.stwu r rA d) s = .next (based sent))) ∧
      (err = true → failed sent 0x82000000 (exec (.stw r rA d) s) ∧ failed sent 0x82000000 (exec (.stwu r rA d) s))) ∧
    (s.directSegment ex = some sr →
      (ex.toNat % 4 = 0 → dsi s 0x04000000 ex (exec (.lwarx r rA rB rc) s) ∧
        dsi s 0x06000000 ex (exec (.stwcxRec r rA rB rc) s) ∧
        (beBit s.cfg.ear 0 = true → dsi s 0x04000000 ex (exec (.eciwx r rA rB) s) ∧
          dsi s 0x06000000 ex (exec (.ecowx r rA rB) s))) ∧
      (∀ i ∈ [Instr.dcbt rA rB, .dcbtst rA rB, .dcbz rA rB, .dcbst rA rB, .dcbf rA rB, .icbi rA rB],
        exec i s = .next { s with pc := s.pc + 4 }) ∧
      (s.msrPR = false → exec (.dcbi rA rB) s = .next { s with pc := s.pc + 4 }))

/-- The memory map: RAM, ROM, devices and holes. Where data accesses go straight to memory, lwz and stw of one part
complete whatever answers there: RAM is read and written; ROM is read, and a write changes no byte; a device answers
a read with free bytes and a write is an event on the bus; a hole answers TEA, which the next boundary, with nothing
else going on, makes a machine check cause (log entry 4). The word read from RAM or ROM is memory's; a word written
elsewhere than to RAM changes no byte. (R10, R197, R746, R872, 92_eei_decisions.md D5) -/
def Obligations.MemoryMap : Prop :=
  (∀ (s : State) (x : Input), x.snoops = [] →
    (s.applyInput x).tea = false ∧ (s.applyInput x).latches.mc.tea = (s.latches.mc.tea || x.mc.tea || s.tea)) ∧
  ∀ (s : State) (r rA : Reg) (d : BitVec 16), s.bareAccess →
    let ea := (if rA = 0 then 0 else s.readGpr rA) + d.signExtend 32
    let kind := s.kindOf (ea.extractLsb' 5 27)
    oneAccess ea 4 →
    (∃ t, exec (.lwz r rA d) s = .next t ∧ s.gprsBut t [r] ∧
      t = { s with gpr := t.gpr, pc := s.pc + 4, busLog := t.busLog, fresh := t.fresh, tea := s.tea || kind == .hole } ∧
      (kind = .ram ∨ kind = .rom →
        t.readGpr r = s.bareByte ea 0 ++ s.bareByte ea 1 ++ s.bareByte ea 2 ++ s.bareByte ea 3 ∧ t.fresh = s.fresh)) ∧
    ∃ t, exec (.stw r rA d) s = .next t ∧
      t = { s with mem := t.mem, pc := s.pc + 4, busLog := t.busLog, tea := s.tea || kind == .hole } ∧
      (kind = .ram → s.storedRegs t r ea 4) ∧ (kind ≠ .ram → t.mem = s.mem) ∧
      (kind = .device → ∃ op, t.busLog = op :: .deviceWrite ((List.range 4).map fun k =>
        (ea + BitVec.ofNat 32 k, (s.readGpr r).extractLsb' (24 - 8 * k) 8)) :: s.busLog)

/-- lwarx and stwcx.: value, reservation, conditional store, CR0, completion. At an aligned address of plain storage
lwarx loads the word and sets the reservation to its block; stwcx. with a reservation stores the word and clears the
reservation with CR0 = 001 and SO, without one stores nothing and answers 000 and SO; in both cases the other
registers, CR bits and bytes stay. (R180, R181, R182, R670, R671) -/
def Obligations.ReservationPair : Prop :=
  ∀ (s : State) (r rA rB : Reg) (pa : Word) (wimg : BitVec 4),
    let ex := (if rA = 0 then 0 else s.readGpr rA) + s.readGpr rB
    ex.toNat % 4 = 0 →
    (s.plainOperand .lwarx ex pa wimg 4 → ∃ t, exec (.lwarx r rA rB false) s = .next t ∧
      s.accessed { t with resv := s.resv, resvAddr := s.resvAddr } [r] ∧ t.resv = true ∧ t.resvAddr = blockOf pa ∧
      t.readGpr r = BitVec.ofNat 32 (natOfBytes (s.operandBytes pa 4))) ∧
    (s.plainOperand .stwcx ex pa wimg 4 → ∃ t, exec (.stwcxRec r rA rB true) s = .next t ∧ t.resv = false ∧
      s.crFieldIs t 0 false false s.resv (beBit s.xer 0) ∧
      (if s.resv = true then
          s.stored { t with resv := s.resv, cr := s.cr } [] pa (bytesOfNat 4 (s.readGpr r).toNat)
        else { t with cr := s.cr } = { s with pc := s.pc + 4 }))

/-- What clears the reservation besides stwcx.: a global snoop of six kinds that hits the reserved block. Another
master's operation that is snooped (the processor is not stopped or napping) clears the reservation exactly when it
is snooped, that is GBL is asserted (R177), it is a write-with-flush, write-with-flush-atomic, read-with-intent-to-
modify, RWITM-atomic, write-with-kill or kill, and its address lies in the reserved block. (R183) -/
def Obligations.SnoopClearsReservation : Prop :=
  ∀ (s : State) (x : Snoop), s.latches.checkstop = false → (s.latches.halted = false ∨ s.pins.run = true) →
    ((s.otherMaster x).resv = true ↔ s.resv = true ∧ ¬(x.gbl = true ∧
      x.kind ∈ [.writeFlush, .writeFlushAtomic, .rwitm, .rwitmAtomic, .writeKill, .kill] ∧
      s.resvAddr = x.addr.extractLsb' 5 27)) ∧
    (s.otherMaster x).resvAddr = s.resvAddr

/-- The cache instructions: effect on bytes, cache and memory, frame, completion. On plain storage in a sound memory
system with the data cache enabled: dcbz makes the 32 bytes of its block zero and leaves every other byte a data
access sees; dcbst and dcbf leave every byte as seen and memory holding the block's bytes, dcbf also the block out
of the cache; icbi (instruction cache enabled) leaves the block out of the instruction cache and every data byte as
seen. dcbt and dcbtst, whose address no two DBATs and no malformed DBAT match, complete, and change no byte if all
of memory is RAM or ROM (a block of a device is filled with free bytes, log entry 4). They change nothing at all
where the data cache is off (log entry 31) or locked, the address has no translation or the storage is caching-
inhibited. dcbi in supervisor mode discards its block: data accesses then see memory's bytes there, and memory is
unchanged. No register but pc changes. (R165, R193, R194, R680, R681, R683, R684, R685, R686, R687) -/
def Obligations.CacheInstructions : Prop :=
  ∀ (s : State) (rA rB : Reg) (pa : Word) (wimg : BitVec 4),
    let ex := (if rA = 0 then 0 else s.readGpr rA) + s.readGpr rB
    let only (t : State) : Prop := t = { s with
      pc := s.pc + 4, dcache := t.dcache, icache := t.icache, dtlb := t.dtlb, mem := t.mem, busLog := t.busLog }
    s.dataSound →
    (s.dcacheOn = true →
      (s.plainStorage .dcbz ex pa wimg → ∃ t, exec (.dcbz rA rB) s = .next t ∧ only t ∧
        (∀ a, blockOf a = blockOf pa → t.dataByte a = 0) ∧
        (∀ a, blockOf a ≠ blockOf pa → t.dataByte a = s.dataByte a)) ∧
      (s.plainStorage .cacheLoad ex pa wimg →
        (∃ t, exec (.dcbst rA rB) s = .next t ∧ only t ∧ s.sameBytes t ∧
          ∀ a, blockOf a = blockOf pa → Memory.read t.mem a.toNat = s.dataByte a) ∧
        (∃ t, exec (.dcbf rA rB) s = .next t ∧ only t ∧ s.sameBytes t ∧ findD t.dcache (blockOf pa) = none ∧
          ∀ a, blockOf a = blockOf pa → Memory.read t.mem a.toNat = s.dataByte a)) ∧
      (s.msrPR = false → s.plainStorage .cacheStore ex pa wimg → ∃ t, exec (.dcbi rA rB) s = .next t ∧ only t ∧
        t.mem = s.mem ∧ (∀ a, blockOf a = blockOf pa → t.dataByte a = Memory.read s.mem a.toNat) ∧
        ∀ a, blockOf a ≠ blockOf pa → t.dataByte a = s.dataByte a)) ∧
    (s.icacheOn = true → s.plainStorage .cacheLoad ex pa wimg →
      ∃ t, exec (.icbi rA rB) s = .next t ∧ only t ∧ s.sameBytes t ∧ findI t.icache (blockOf pa) = none) ∧
    ((batHits s.mmu.dbat s.msrPR ex).length ≤ 1 → batIllegal s.mmu.dbat s.msrPR ex = false →
      ∀ i ∈ [Instr.dcbt rA rB, .dcbtst rA rB], ∃ t, exec i s = .next t ∧
        only { t with fresh := s.fresh, tea := s.tea } ∧
        ((∀ b, s.kindOf b = .ram ∨ s.kindOf b = .rom) → only t ∧ s.sameBytes t) ∧
        (s.dcacheOn = false ∨ s.dcacheLocked = true ∨ s.translateTouch ex = none ∨
          (∃ a w v, s.translateTouch ex = some (a, w, v) ∧ w.getMsbD 1 = true) → t = { s with pc := s.pc + 4 }))

/-- eciwx and ecowx: the bus operation, the EAR test, frame, completion. At an aligned address that translates with
nothing changed and EAR[E] = 1, ecowx sends the physical address, EAR[RID] and rS on the bus and eciwx the address
and RID; eciwx writes rD with the device's word, which is external input (log entry 14); memory and all else stay.
With EAR[E] = 0 both take the DSI with DSISR[11] (and bit 6 for ecowx). (R153, R169, R690, R691, R751) -/
def Obligations.ExternalControl : Prop :=
  ∀ (s : State) (r rA rB : Reg) (pa : Word) (wimg : BitVec 4),
    let ex := (if rA = 0 then 0 else s.readGpr rA) + s.readGpr rB
    let rid : BitVec 4 := s.cfg.ear.extractLsb' 0 4
    ex.toNat % 4 = 0 →
    (beBit s.cfg.ear 0 = true → s.translate .eciwx ex = (.mapped pa wimg, s) →
      ∃ t, exec (.eciwx r rA rB) s = .next t ∧ s.gprsBut t [r] ∧
        t = { s with gpr := t.gpr, pc := s.pc + 4, busLog := .externalRead rid pa :: s.busLog, fresh := s.fresh + 1 }) ∧
    (beBit s.cfg.ear 0 = true → s.translate .ecowx ex = (.mapped pa wimg, s) →
      exec (.ecowx r rA rB) s = .next { s with
        pc := s.pc + 4, busLog := .externalWrite rid pa (s.readGpr r) :: s.busLog }) ∧
    (beBit s.cfg.ear 0 = false →
      (∃ t, exec (.eciwx r rA rB) s = .next t ∧
        State.tookException { s with exc := { s.exc with dsisr := 0x00100000, dar := ex } } t 0x00300 s.pc 0) ∧
      ∃ t, exec (.ecowx r rA rB) s = .next t ∧
        State.tookException { s with exc := { s.exc with dsisr := 0x02100000, dar := ex } } t 0x00300 s.pc 0)

/-- With MSR[FP] = 0 every floating-point instruction takes the floating-point unavailable exception. Every
instruction of primary opcodes 48 to 55, 59 and 63 and every indexed floating-point load or store, whatever its
operands, takes the exception of offset 0x00800 with SRR0 = pc and no information bit; nothing else changes. (R420,
R565, R735, R769) -/
def Obligations.FpUnavailable : Prop :=
  ∀ (s : State) (i : Instr), s.msrFP = false → needsFp i = true →
    ∃ t, exec i s = .next t ∧ s.tookException t 0x00800 s.pc 0

/-- fmr, fneg, fabs, fnabs, fsel, mffs: value, frame, completion. With floating point on and exceptions off, the
moves copy frB with the sign kept, inverted, cleared or set; fsel copies frC if frA is a zero or a positive value
that is no NaN, else frB, also where FPSCR[NI] = 1 and frA is denormalized: that it is not flushed there is the
model's choice (log entry 21); mffs puts the FPSCR in the low word of frD (the high word is free, log entry 25).
FPSCR, GPRs and memory stay; Rc = 1 copies FPSCR[0:3] to CR1. Whether the FPR was last written by a single-precision
operation is noted for stfiwx (log entry 53). (R429, R440, R460, R466, R467, R468, R469) -/
def Obligations.FpMovesAndSelect : Prop :=
  ∀ (s : State) (frD frA frB frC : Reg) (rc : Bool), s.fpQuiet →
    let b := s.readFpr frB
    let a := s.readFpr frA
    let done (i : Instr) (v : Dword) : Prop :=
      ∃ t, exec i s = .next t ∧ s.fpDoneAs t frD rc ∧ t.readFpr frD = v ∧ s.fpWrittenBy t frD false true ∧
        t.fpscr = s.fpscr
    done (.fmr frD frB rc) b ∧ done (.fneg frD frB rc) (BitVec.ofBool (!b.getMsbD 0) ++ b.extractLsb' 0 63) ∧
    done (.fabs frD frB rc) (0#1 ++ b.extractLsb' 0 63) ∧ done (.fnabs frD frB rc) (1#1 ++ b.extractLsb' 0 63) ∧
    done (.fsel frD frA frB frC rc)
      (if a.extractLsb' 0 63 = 0 ∨ (a.getMsbD 0 = false ∧ a.toNat ≤ 0x7FF0000000000000) then s.readFpr frC else b) ∧
    ∃ t, exec (.mffs frD rc) s = .next t ∧ s.fpDoneAs t frD rc ∧ (t.readFpr frD).extractLsb' 0 32 = s.fpscr ∧
      s.fpWrittenBy t frD false true ∧ t.fpscr = s.fpscr

/-- The double-precision arithmetic instructions, frsp, fres and frsqrte: what is delivered, frame, completion. With
floating point on and exceptions off, fadd, fsub, fmul, fdiv, fmadd, fmsub, fnmadd, fnmsub, and the conversions
frsp, fres, frsqrte complete: frD and FPRF get what the operation delivers (or stay, for an enabled invalid
operation or zero divide), FR and FI where they are defined, the exception bits are added, FX is set if one is new,
VX and FEX are the summaries, the control bits stay, CR1 follows Rc, nothing else changes. What fres and frsqrte
estimate is the part's (D16, log entry 26) and their FR and FI are undefined (log entry 25): neither is stated here.
That fres clears FPR[35:63] of a NaN it propagates is the model's choice (log entry 26). Whether the FPR was last
written by a single-precision operation is noted for stfiwx (log entry 53). (R426, R427, R428, R429, R430, R432,
R434, R436, R438, R439, R441 to R447 of 41_float.md, R450 and 92_eei_decisions.md D16) -/
def Obligations.DoubleArithmetic : Prop :=
  ∀ (s : State) (frD frA frB frC : Reg) (rc : Bool), s.fpQuiet →
    let w := s.fpscr
    let a := s.readFpr frA
    let b := s.readFpr frB
    let c := s.readFpr frC
    let ends (i : Instr) (single : Bool) (r : FpOut) : Prop := ∃ t, exec i s = .next t ∧ s.fpDoneAs t frD rc ∧
      s.fpDelivered t frD r ∧ s.fpWrittenBy t frD single r.write.isSome
    let done (i : Instr) (r : FpOut) : Prop := ends i false r
    done (.fadd frD frA frB rc) (fpAdd fmtDouble w false a b) ∧
    done (.fsub frD frA frB rc) (fpAdd fmtDouble w true a b) ∧
    done (.fmul frD frA frC rc) (fpMul fmtDouble w a c) ∧ done (.fdiv frD frA frB rc) (fpDiv fmtDouble w a b) ∧
    done (.fmadd frD frA frB frC rc) (fpMulAdd fmtDouble w false false a c b) ∧
    done (.fmsub frD frA frB frC rc) (fpMulAdd fmtDouble w true false a c b) ∧
    done (.fnmadd frD frA frB frC rc) (fpMulAdd fmtDouble w false true a c b) ∧
    done (.fnmsub frD frA frB frC rc) (fpMulAdd fmtDouble w true true a c b) ∧
    ends (.frsp frD frB rc) true (fpRoundSingle w b) ∧ ends (.fres frD frB rc) true (fpRes w b) ∧
    done (.frsqrte frD frB rc) (fpRsqrte w b)

/-- The single-precision arithmetic instructions: what is delivered, frame, completion. With floating point on and
exceptions off and operands representable in single format, fadds, fsubs, fmuls, fdivs, fmadds, fmsubs, fnmadds and
fnmsubs complete as the double forms do, rounding to single; with another operand they complete too, with frD and
some FPSCR bits free (log entry 24): only frD, FPSCR and CR1 can change. Whether the FPR was last written by a
single-precision operation is noted for stfiwx (log entry 53). (R422, R426, R428, R431, R433, R435, R437, R442,
R444, R446, R448) -/
def Obligations.SingleArithmetic : Prop :=
  ∀ (s : State) (frD frA frB frC : Reg) (rc : Bool), s.fpQuiet →
    let w := s.fpscr
    let a := s.readFpr frA
    let b := s.readFpr frB
    let c := s.readFpr frC
    let single (x : Dword) : Prop := singleRepresentable x (unpack x) = true
    let done (i : Instr) (ops : List Dword) (r : FpOut) : Prop :=
      ∃ t, exec i s = .next t ∧ s.fpDoneAs t frD rc ∧
        ((∀ x ∈ ops, single x) → s.fpDelivered t frD r ∧ s.fpWrittenBy t frD true r.write.isSome) ∧
        ((∃ x ∈ ops, ¬single x) → t.fprIsSingle frD = true)
    done (.fadds frD frA frB rc) [a, b] (fpAdd fmtSingle w false a b) ∧
    done (.fsubs frD frA frB rc) [a, b] (fpAdd fmtSingle w true a b) ∧
    done (.fmuls frD frA frC rc) [a, c] (fpMul fmtSingle w a c) ∧
    done (.fdivs frD frA frB rc) [a, b] (fpDiv fmtSingle w a b) ∧
    done (.fmadds frD frA frB frC rc) [a, b, c] (fpMulAdd fmtSingle w false false a c b) ∧
    done (.fmsubs frD frA frB frC rc) [a, b, c] (fpMulAdd fmtSingle w true false a c b) ∧
    done (.fnmadds frD frA frB frC rc) [a, b, c] (fpMulAdd fmtSingle w false true a c b) ∧
    done (.fnmsubs frD frA frB frC rc) [a, b, c] (fpMulAdd fmtSingle w true true a c b)

/-- A finite double stands for its number, and sums and products of such values are exact before rounding. A double
whose exponent field is not 2047 stands for (-1)^S times 2^(E - 1023) times 1.F, or for E = 0 times 2^-1022 times
0.F. The exact sum of two finite values is the rational sum of the numbers they stand for and the exact product the
rational product. (R421, R430, R434, R441) -/
def Obligations.FpExactOperations : Prop :=
  (∀ d : Dword,
    let E : Nat := (d.extractLsb' 52 11).toNat
    let F : Rat := ((d.extractLsb' 0 52).toNat : Rat) / 2 ^ 52
    E ≠ 2047 → (unpack d).isNumber ((if d.getMsbD 0 then -1 else 1) *
      (if E = 0 then F * (2 : Rat) ^ (-1022 : Int) else (1 + F) * (2 : Rat) ^ ((E : Int) - 1023)))) ∧
  ∀ (x y : FpVal) (p q : Rat) (down : Bool), x.isNumber p → y.isNumber q →
    (FpVal.add down x y).isNumber (p + q) ∧ (FpVal.mul x y).isNumber (p * q)

/-- Rounding to a multiple of a power of two follows the rounding mode. For a magnitude m * 2^e (as m over 2^k
units) rounded to a multiple q of the unit: inexact says whether it was no multiple, increased whether q units
exceed it; toward zero never increases; to nearest is within half a unit and even at a tie; toward +infinity
increases exactly an inexact positive, toward -infinity exactly an inexact negative magnitude. (R425) -/
def Obligations.RoundingToMultiple : Prop :=
  ∀ (rn : Rounding) (neg : Bool) (m k : Nat) (e : Int), 0 < k →
    let r := roundAt rn neg m e (e + k)
    let unit := 2 ^ k
    (r.inexact = decide (m % unit ≠ 0)) ∧ (r.increased = decide (m < r.q * unit)) ∧
    (r.increased = false → r.q = m / unit) ∧ (r.increased = true → r.q = m / unit + 1) ∧
    (rn = .nearest → 2 * m ≤ 2 * (r.q * unit) + unit ∧ 2 * (r.q * unit) ≤ 2 * m + unit ∧
      (2 * (m % unit) = unit → r.q % 2 = 0)) ∧
    (rn = .towardZero → r.increased = false) ∧ (rn = .up → r.increased = (r.inexact && !neg)) ∧
    (rn = .down → r.increased = (r.inexact && neg))

/-- Addition, multiplication, division, multiply-add and rounding to single deliver the exact value rounded once.
For operands that stand for numbers, in IEEE mode with overflow and underflow exceptions disabled, what fadd, fsub,
fmul, fdiv, the multiply-adds (with the sign inverted after rounding for the negative forms) and frsp deliver in
their format is the rational result rounded once by the mode of FPSCR[RN] to the units of its binade (of the
smallest one for a tiny result), or infinity or the largest number on overflow; FPRF is its class, FR and FI say
whether the magnitude grew and whether the result is inexact, OX, UX and XX are raised as the procedure says. An
exact zero is a zero, of the sign the rules give for a sum of opposite numbers. Single arithmetic is stated for the
function; its operands must be singles (SingleArithmetic). (R421, R422, R424, R425, R426, R427, R430, R434, R436,
R441, R445, R450) -/
def Obligations.ArithmeticRoundsExactValue : Prop :=
  ∀ (fmt : FpFormat) (w : Word) (a b c : Dword) (p q r : Rat), fmt = fmtDouble ∨ fmt = fmtSingle →
    beBit w 25 = false → beBit w 26 = false → beBit w 29 = false →
    (unpack a).isNumber p → (unpack b).isNumber q → (unpack c).isNumber r →
    fmt.delivers w false (p + q) (fpAdd fmt w false a b) ∧ fmt.delivers w false (p - q) (fpAdd fmt w true a b) ∧
    fmt.delivers w false (p * r) (fpMul fmt w a c) ∧ (q ≠ 0 → fmt.delivers w false (p / q) (fpDiv fmt w a b)) ∧
    (∀ flip, fmt.delivers w flip (p * r + q) (fpMulAdd fmt w false flip a c b) ∧
      fmt.delivers w flip (p * r - q) (fpMulAdd fmt w true flip a c b)) ∧
    fmtSingle.delivers w false q (fpRoundSingle w b) ∧
    (p ≠ 0 → p + q = 0 → (fpAdd fmt w false a b).write =
      some (if fpRN w = .down then 0x8000000000000000 else 0, if fpRN w = .down then 0b10010 else 0b00010))

/-- The estimates of fres and frsqrte are within their bounds. In IEEE mode, for an operand that stands for a number
x that is not 0: where 1/x lies in the range of normalized singles, from 2^-126 to (2 - 2^-23) * 2^127, fres
delivers a number within 1/256 of it, relative to it; for x > 0 frsqrte delivers a positive number within 1/32 of
1/sqrt(x). Which number in these bounds is the part's estimate, a free value (log entry 26). (R438, R439,
92_eei_decisions.md D16) -/
def Obligations.EstimatesWithinBounds : Prop :=
  ∀ (w : Word) (b : Dword) (x : Rat), beBit w 29 = false → (unpack b).isNumber x → x ≠ 0 →
    ((2 : Rat) ^ (-126 : Int) ≤ |1 / x| → |1 / x| ≤ (2 - (2 : Rat) ^ (-23 : Int)) * (2 : Rat) ^ (127 : Int) →
      ∃ d c y, (fpRes w b).write = some (d, c) ∧ (unpack d).isNumber y ∧ |y * x - 1| ≤ 1 / 256) ∧
    (0 < x → ∃ d c y, (fpRsqrte w b).write = some (d, c) ∧ (unpack d).isNumber y ∧ 0 < y ∧
      (31 / 32) ^ 2 ≤ y ^ 2 * x ∧ y ^ 2 * x ≤ (33 / 32) ^ 2)

/-- A single loaded and stored again is the same word. SINGLE of DOUBLE of a word is that word, for every word
(zeros, denormalized and normalized numbers, infinities, NaNs), whatever the free bits. (R470, R471) -/
def Obligations.SingleDoubleRoundTrip : Prop :=
  ∀ w free : Word, singleOf (doubleOf w) free = w

/-- fcmpu and fcmpo: field, FPCC, exception bits, frame, completion. With floating point on and exceptions off, the
compares put the four bits less, greater, equal, unordered in FPCC and in the CR field; fcmpu sets VXSNAN for a
signaling NaN, fcmpo also VXVC for a NaN unless a signaling one meets VE = 1; C (bit 15), FR, FI and the control
bits stay, the summaries hold; FPRs, GPRs, other CR fields and memory stay. With bit 31 = 1 the same happens except
that the CR field is free (log entry 6). (R428, R429, R455, R456) -/
def Obligations.FpCompares : Prop :=
  ∀ (s : State) (crfD : BitVec 3) (frA frB : Reg), s.fpQuiet →
    let w := s.fpscr
    let a := s.readFpr frA
    let b := s.readFpr frB
    let snan := isSnan a || isSnan b
    let nan := isNan a || isNan b
    let c := fpCompare w a b
    let done (f : Bool → Instr) (exc : Word) : Prop := ∃ t u, exec (f false) s = .next t ∧
      t = { s with fpscr := t.fpscr, cr := t.cr, pc := s.pc + 4 } ∧
      exec (f true) s = .next u ∧ u = { t with cr := u.cr, fresh := s.fresh + 1 } ∧
      (∀ k, k / 4 ≠ crfD.toNat → beBit u.cr k = beBit s.cr k) ∧
      s.crFieldIs t crfD (c.getMsbD 0) (c.getMsbD 1) (c.getMsbD 2) (c.getMsbD 3) ∧ t.fpscr.extractLsb' 12 4 = c ∧
      t.fpscr &&& fpExceptions = (w ||| exc) &&& fpExceptions ∧ t.fpscr &&& 0x000708FF = w &&& 0x000708FF ∧
      beBit t.fpscr 0 = (beBit w 0 || (exc &&& ~~~w &&& fpExceptions != 0)) ∧ fpSummarized t.fpscr
    done (.fcmpu crfD frA frB) (if snan then beMask 7 else 0) ∧
    done (.fcmpo crfD frA frB)
      ((if snan then beMask 7 else 0) ||| (if nan && !(snan && beBit w 24) then beMask 12 else 0))

/-- The compare bits order the numbers the operands stand for. For two operands that stand for finite numbers in
IEEE mode, exactly one of less, greater, equal is set, by the order of those numbers; with a NaN the answer is
unordered. (R455) -/
def Obligations.FpCompareOrdersValues : Prop :=
  ∀ (w : Word) (a b : Dword), fpNI w = false →
    (isNan a = true ∨ isNan b = true → fpCompare w a b = 0b0001) ∧
    (∀ p q : Rat, (unpack a).isNumber p → (unpack b).isNumber q →
      (p < q → fpCompare w a b = 0b1000) ∧ (q < p → fpCompare w a b = 0b0100) ∧ (p = q → fpCompare w a b = 0b0010))

/-- fctiw and fctiwz: the number rounded to an integer or the saturated value, what is delivered, frame, completion.
With floating point on and exceptions off, fctiw (by RN) and fctiwz (toward zero) complete: the low word of frD gets
the rounded integer, or stays for an enabled invalid conversion; FR and FI are the conversion's, the exception bits
are added; FPRF and the high word are free (log entry 25); only frD, FPSCR and CR1 change. For an operand that
stands for a number (IEEE mode) the integer is the number rounded by the mode, with XX and FI for an inexact one and
FR where the magnitude grew; outside the signed words it is an invalid conversion (VXCVI) to the nearest end of the
range. Whether the FPR was last written by a single-precision operation is noted for stfiwx (log entry 53). (R424,
R451, R452) -/
def Obligations.FpToInteger : Prop :=
  (∀ (s : State) (frD frB : Reg) (rc : Bool), s.fpQuiet →
    let done (i : Instr) (r : IntOut) : Prop := ∃ t, exec i s = .next t ∧ s.fpDoneAs t frD rc ∧
      (match r.write with
        | some v => (t.readFpr frD).extractLsb' 0 32 = v
        | none => t.readFpr frD = s.readFpr frD) ∧ s.fpWrittenBy t frD false r.write.isSome ∧
      beBit t.fpscr 13 = r.fr ∧ beBit t.fpscr 14 = r.fi ∧
      t.fpscr &&& fpExceptions = (s.fpscr ||| r.exc) &&& fpExceptions ∧ t.fpscr &&& 0xFF = s.fpscr &&& 0xFF ∧
      fpSummarized t.fpscr
    done (.fctiw frD frB rc) (fpToInt s.fpscr (fpRN s.fpscr) (s.readFpr frB)) ∧
    done (.fctiwz frD frB rc) (fpToInt s.fpscr .towardZero (s.readFpr frB))) ∧
  ∀ (w : Word) (rn : Rounding) (b : Dword) (x : Rat), beBit w 29 = false → (unpack b).isNumber x →
    ∃ z : Int, rn.toInteger x z ∧ fpToInt w rn b =
      (if z < -2147483648 then invalidInt w (beMask 23) 0x80000000
      else if 2147483647 < z then invalidInt w (beMask 23) 0x7FFFFFFF
      else ⟨if (z : Rat) = x then 0 else beMask 6, some (BitVec.ofInt 32 z), decide (|x| < |(z : Rat)|),
        decide ((z : Rat) ≠ x)⟩)

/-- mcrfs, mtfsfi, mtfsf, mtfsb0, mtfsb1: the bits written, frame, completion. With floating point on and exceptions
off these complete: a bit of the FPSCR that the instruction selects and software can write (not FEX, VX or the
reserved bit 20) gets the value given; mtfsb1, and mtfsf with field 0 not selected (the MODEL's reading of R428
beside R463, log entry 54), also set FX when they raise an exception bit; mcrfs copies a field to CR and clears its
exception bits and FX; every other bit stays, FEX and VX are the summaries. CR1 follows Rc (mcrfs: the field named);
nothing else changes. (R33, R428, R429, R461, R462, R463, R464, R465) -/
def Obligations.FpscrMoves : Prop :=
  ∀ (s : State) (crfD crfS : BitVec 3) (imm : BitVec 4) (fm : BitVec 8) (frB : Reg) (d : BitVec 5) (rc : Bool),
    s.fpQuiet →
    let w := s.fpscr
    let free (k : Nat) : Prop := k < 32 ∧ k ≠ 1 ∧ k ≠ 2 ∧ k ≠ 20
    let done (i : Instr) (sel : Nat → Bool) (v : Nat → Bool) : Prop := ∃ t, exec i s = .next t ∧
      t = { s with fpscr := t.fpscr, cr := t.cr, pc := s.pc + 4 } ∧
      t.cr = (if rc then setField4 s.cr 1 (getField4 t.fpscr 0) else s.cr) ∧ fpSummarized t.fpscr ∧
      beBit t.fpscr 20 = beBit w 20 ∧ ∀ k, free k → beBit t.fpscr k = if sel k then v k else beBit w k
    done (.mtfsfi crfD imm rc) (fun k => k / 4 == crfD.toNat) (fun k => imm.getMsbD (k % 4)) ∧
    done (.mtfsf fm frB rc)
      (fun k => fm.getMsbD (k / 4) || (k == 0 && (List.range 32).any fun j =>
        fm.getMsbD (j / 4) && beBit fpExceptions j && !beBit w j && (s.readFpr frB).getMsbD (32 + j)))
      (fun k => if fm.getMsbD (k / 4) then (s.readFpr frB).getMsbD (32 + k) else true) ∧
    done (.mtfsb0 d rc) (fun k => k == d.toNat) (fun _ => false) ∧
    done (.mtfsb1 d rc)
      (fun k => k == d.toNat || (k == 0 && !beBit w d.toNat && beBit fpExceptions d.toNat)) (fun _ => true) ∧
    ∃ t, exec (.mcrfs crfD crfS) s = .next t ∧ t = { s with fpscr := t.fpscr, cr := t.cr, pc := s.pc + 4 } ∧
      s.crFieldIs t crfD (beBit w (4 * crfS.toNat)) (beBit w (4 * crfS.toNat + 1)) (beBit w (4 * crfS.toNat + 2))
        (beBit w (4 * crfS.toNat + 3)) ∧ fpSummarized t.fpscr ∧ beBit t.fpscr 20 = beBit w 20 ∧
      ∀ k, free k → beBit t.fpscr k = (beBit w k && !(k / 4 == crfS.toNat && beBit fpSticky k))

/-- The floating-point loads: value, base register, frame, completion. With MSR[FP] = 1 and an operand that is one
access to plain storage, lfs, lfsx, lfsu, lfsux write DOUBLE of the word and lfd, lfdx, lfdu, lfdux the double word
to frD; the update forms (rA not 0) write the effective address to rA; FPSCR, the other registers and every byte a
data access sees stay. Whether the FPR was last written by a single-precision operation is noted for stfiwx (log
entry 53). (R502, R565, R566, R567, R568, R569, R570, R571, R572, R573) -/
def Obligations.FpLoads : Prop :=
  ∀ (s : State) (frD rA rB : Reg) (d : BitVec 16) (pa : Word) (wimg : BitVec 4), s.msrFP = true →
    let base : Word := if rA = 0 then 0 else s.readGpr rA
    let ea := base + d.signExtend 32
    let ex := base + s.readGpr rB
    let val (n : Nat) : Nat := natOfBytes (s.operandBytes pa n)
    let single : Dword := doubleOf (BitVec.ofNat 32 (val 4))
    let double : Dword := BitVec.ofNat 64 (val 8)
    let loaded (i : Instr) (l : List Reg) (isSingle : Bool) (t : State) : Prop := exec i s = .next t ∧
      s.accessedFp t frD l ∧ t.readFpr frD = (if isSingle then single else double) ∧ t.fprIsSingle frD = isSingle
    let done (i : Instr) (isSingle : Bool) : Prop := ∃ t, loaded i [] isSingle t
    let updated (i : Instr) (e : Word) (isSingle : Bool) : Prop :=
      rA ≠ 0 → ∃ t, loaded i [rA] isSingle t ∧ t.readGpr rA = e
    (s.plainOperand .fpLoad ea pa wimg 4 →
      done (.lfs frD rA d) true ∧ updated (.lfsu frD rA d) ea true) ∧
    (s.plainOperand .fpLoad ex pa wimg 4 →
      done (.lfsx frD rA rB false) true ∧ updated (.lfsux frD rA rB false) ex true) ∧
    (s.plainOperand .fpLoad ea pa wimg 8 → done (.lfd frD rA d) false ∧ updated (.lfdu frD rA d) ea false) ∧
    (s.plainOperand .fpLoad ex pa wimg 8 →
      done (.lfdx frD rA rB false) false ∧ updated (.lfdux frD rA rB false) ex false)

/-- The floating-point stores: bytes stored, base register, frame, completion. With MSR[FP] = 1 and an operand that
is one access to plain storage, stfd, stfdx, stfdu, stfdux store the double word, stfiwx the low word of frS (or,
where a single-precision operation wrote frS last, some word: 93_implementation_defined.md U3, log entry 53), stfs,
stfsx, stfsu, stfsux SINGLE of frS (where that is undefined, some word: log entry 27); the update forms (rA not 0)
write the effective address to rA; every other byte and register stay. (R471, R502, R565, R580, R581, R582, R584,
R585, R586, R587, R588, R473) -/
def Obligations.FpStores : Prop :=
  ∀ (s : State) (frS rA rB : Reg) (d : BitVec 16) (pa : Word) (wimg : BitVec 4), s.msrFP = true →
    let base : Word := if rA = 0 then 0 else s.readGpr rA
    let ea := base + d.signExtend 32
    let ex := base + s.readGpr rB
    let double : List Byte := bytesOfNat 8 (s.readFpr frS).toNat
    let done (i : Instr) (bs : List Byte) : Prop := ∃ t, exec i s = .next t ∧ s.stored t [] pa bs
    let updated (i : Instr) (bs : List Byte) (e : Word) : Prop :=
      rA ≠ 0 → ∃ t, exec i s = .next t ∧ s.stored t [rA] pa bs ∧ t.readGpr rA = e
    let single (i : Instr) : Prop := ∃ t free, exec i s = .next t ∧
      s.stored t [] pa (bytesOfNat 4 (singleOf (s.readFpr frS) free).toNat)
    let singleUp (i : Instr) (e : Word) : Prop := rA ≠ 0 → ∃ t free, exec i s = .next t ∧
      s.stored t [rA] pa (bytesOfNat 4 (singleOf (s.readFpr frS) free).toNat) ∧
      t.readGpr rA = e
    (s.plainOperand .fpStore ea pa wimg 8 → done (.stfd frS rA d) double ∧ updated (.stfdu frS rA d) double ea) ∧
    (s.plainOperand .fpStore ex pa wimg 8 →
      done (.stfdx frS rA rB false) double ∧ updated (.stfdux frS rA rB false) double ex) ∧
    (s.plainOperand .fpStore ea pa wimg 4 →
      single (.stfs frS rA d) ∧ singleUp (.stfsu frS rA d) ea) ∧
    (s.plainOperand .fpStore ex pa wimg 4 →
      single (.stfsx frS rA rB false) ∧ singleUp (.stfsux frS rA rB false) ex ∧
      (s.fprIsSingle frS = false →
        done (.stfiwx frS rA rB false) (bytesOfNat 4 ((s.readFpr frS).toNat % 4294967296))) ∧
      (s.fprIsSingle frS = true → ∃ (t : State) (v : Word), exec (.stfiwx frS rA rB false) s = .next t ∧
        State.stored { s with fresh := s.fresh + 1 } t [] pa (bytesOfNat 4 v.toNat)))

/-- BAT match and BAT physical address. A pair matches an effective address exactly when EA[0:3] = BEPI[0:3],
EA[4:14] without the bits of BL is BEPI[4:14], and Vs (supervisor) or Vp (user) is 1; the physical address is
BRPN[0:3], then BRPN[4:14] ORed with the bits of EA[4:14] that BL selects, then EA[15:31]; WIMG is BATnL[25:28].
(R208, R209) -/
def Obligations.BatMatchAndAddress : Prop :=
  ∀ (b : Bat) (pr : Bool) (ea : Word),
    (b.hits pr ea = true ↔
      (∀ k, k < 4 → beBit ea k = beBit b.upper k) ∧
      (∀ k, 4 ≤ k → k < 15 → (beBit ea k && !beBit b.upper (k + 15)) = beBit b.upper k) ∧
      ((pr = false ∧ beBit b.upper 30 = true) ∨ (pr = true ∧ beBit b.upper 31 = true))) ∧
    (∀ k, k < 4 → beBit (b.address ea) k = beBit b.lower k) ∧
    (∀ k, 4 ≤ k → k < 15 →
      beBit (b.address ea) k = (beBit b.lower k || (beBit ea k && beBit b.upper (k + 15)))) ∧
    (∀ k, 15 ≤ k → k < 32 → beBit (b.address ea) k = beBit ea k) ∧
    (∀ k, k < 4 → b.wimg.getMsbD k = beBit b.lower (k + 25))

/-- Translation: real addressing, the page table search, the TLB load, protection, the R and C bits. Without
translation the physical address is the effective address (WIMG 0001 or 0011). Key and PP allow what the table says;
a PTE group's address is HTABORG, the masked hash, the low hash, six zeros. With a sound memory system that is all
RAM, a table search answers the first of the 16 entries of the two groups whose first word has V, VSID, H and API,
and changes no byte. On a TLB miss a page access fails if there is none; else the TLB gets the entry (every entry of
another set stays, and of this one where it has an invalid way; of a full set a free bit says which leaves), R is
set in byte 6 of the PTE and, for a store that is allowed and raises nothing, C in byte 7 and in the TLB entry, no
other byte changes, and the answer is protection, no-execute, the later checks or the address. A TLB hit answers
from the entry; a store to an entry with C = 0 searches again to set C, a page fault if there is no entry. The
model's choice: that there are TLBs (MODEL_TLB of D12, log entry 32), the table entries big-endian in every mode
(D11) and the cached copy of an entry that follows the R and C writes (log entry 33). That the search goes through
the data cache is the spec's own inference (R228, log entry 33). (R202, R211, R226, R227, R228, R229, R231, R233,
R237, R240, R241, R242) -/
def Obligations.PageTranslation : Prop :=
  (∀ (s : State) (ea : Word),
    (s.msrIR = false → (batHits s.mmu.ibat s.msrPR ea).length ≤ 1 →
      s.translate .fetch ea = (.mapped ea 0b0001, s)) ∧
    (s.msrDR = false → (batHits s.mmu.dbat s.msrPR ea).length ≤ 1 → ∀ u ∈ [Use.load, Use.store],
      s.dabrMatch u ea = false → s.translate u ea = (.mapped ea 0b0011, s))) ∧
  (∀ (s : State) (sr : Word), s.segmentKey sr = if beBit s.msr 17 then beBit sr 2 else beBit sr 1) ∧
  (∀ pp : BitVec 2, pageAllows false pp false = true ∧ (pageAllows false pp true = true ↔ pp ≠ 3) ∧
    (pageAllows true pp false = true ↔ pp ≠ 0) ∧ (pageAllows true pp true = true ↔ pp = 2)) ∧
  (∀ (sdr1 : Word) (h : BitVec 19),
    (∀ k, k < 7 → beBit (ptegAddr sdr1 h) k = beBit sdr1 k) ∧
    (∀ k, 7 ≤ k → k < 16 →
      beBit (ptegAddr sdr1 h) k = (beBit sdr1 k || (beBit sdr1 (k + 16) && h.getMsbD (k - 7)))) ∧
    (∀ k, 16 ≤ k → k < 26 → beBit (ptegAddr sdr1 h) k = h.getMsbD (k - 7)) ∧
    ∀ k, 26 ≤ k → beBit (ptegAddr sdr1 h) k = false) ∧
  ∀ (s : State) (u : Use) (sr ea : Word), s.dataSound → (∀ b, s.kindOf b = .ram) →
    let vsid : BitVec 24 := sr.extractLsb' 0 24
    let word (a : Word) : Word := s.tableWord (a + 4)
    let answer (a : Word) : Xlate := s.pageAnswer u sr ea ((word a).extractLsb' 12 20) ((word a).extractLsb' 3 4)
      ((word a).extractLsb' 0 2)
    let full : Bool := decide (2 ≤ ((s.tlb u).filter fun e => e.index == ea.extractLsb' 12 6).length)
    let marked (t : State) (a : Word) (c : Bool) : Prop := s.onlyStorage t ∧ t.tea = s.tea ∧
      ∀ x, t.dataByte x = (if x = a + 6 then s.dataByte x ||| 1
        else if x = a + 7 ∧ c = true then s.dataByte x ||| 0x80 else s.dataByte x)
    let unmarked (t : State) : Prop := s.onlyStorage t ∧ t.fresh = s.fresh ∧ t.tea = s.tea ∧ s.sameBytes t
    (∃ t, s.tableSearch vsid ea = ((s.pteFor vsid ea).map fun a => ⟨a, word a⟩, t) ∧ s.onlyMemorySystem t ∧
      s.sameBytes t) ∧
    (tlbFind (s.tlb u) vsid ea = none →
      (s.pteFor vsid ea = none → ∃ t, s.translatePage u sr ea = (.fail .pageFault, t) ∧ unmarked t) ∧
      ∀ a, s.pteFor vsid ea = some a → ∃ t, s.translatePage u sr ea = (answer a, t) ∧
        marked t a (u.isStore && (answer a).isMapped) ∧ t.fresh = (if full then s.fresh + 1 else s.fresh) ∧
        (∀ x ∈ s.tlb u, full = false ∨ x.index ≠ ea.extractLsb' 12 6 → x ∈ t.tlb u) ∧
        tlbFind (t.tlb u) vsid ea = some ⟨ea.extractLsb' 12 6, ea.extractLsb' 18 10, vsid, (word a).extractLsb' 12 20,
          beBit (word a) 24 || (u.isStore && (answer a).isMapped), (word a).extractLsb' 3 4,
          (word a).extractLsb' 0 2⟩) ∧
    ∀ e, tlbFind (s.tlb u) vsid ea = some e →
      let hit := s.pageAnswer u sr ea e.rpn e.wimg e.pp
      let needsC := u.isStore && hit.isMapped && !e.changed
      (needsC = false → ∃ t, s.translatePage u sr ea = (hit, t) ∧ t = { s with itlb := t.itlb, dtlb := t.dtlb } ∧
        tlbFind (t.tlb u) vsid ea = some e) ∧
      (needsC = true → s.pteFor vsid ea = none →
        ∃ t, s.translatePage u sr ea = (.fail .pageFault, t) ∧ unmarked t) ∧
      ∀ a, needsC = true → s.pteFor vsid ea = some a → ∃ t, s.translatePage u sr ea = (hit, t) ∧
        marked t a true ∧ t.fresh = s.fresh ∧
        tlbFind (t.tlb u) vsid ea = some { e with changed := true }

/-- The decrementer condition is set and cleared only by what the rule names. While the condition is pending, a step
leaves it pending unless the step is a hard reset or takes the decrementer exception (R771) in the state its
boundary reached, where it is pending. No instruction sets it but a mtspr to DEC that changes bit 0 of DEC from 0 to
1 (R805), and counting k ticks sets it exactly when the decrementer passes from 0 to 0xFFFFFFFF (R804), whatever
TBEN is: that DEC counts without TBEN is D33, log entry 10 (DESIGN CHOICE). (R771, R787, R789, R804, R805,
92_eei_decisions.md D33) -/
def Obligations.DecrementerConditionLatched : Prop :=
  (∀ s t : State, s.latches.decPending = true → step s = .next t → t.latches.decPending = false →
    let u := s.takeInput.2.applyInput s.takeInput.1
    s.takeInput.1.hreset = true ∨ (u.latches.decPending = true ∧ State.tookException
      { u with latches := { u.latches with decPending := false } } t 0x00900 u.pc 0)) ∧
  (∀ (i : Instr) (s t : State), exec i s = .next t → s.latches.decPending = false → t.latches.decPending = true →
    ∃ rS rc, i = .mtspr rS 22 rc ∧ beBit s.dec 0 = false ∧ beBit (s.readGpr rS) 0 = true) ∧
  ∀ (s : State) (k : Nat), s.latches.decPending = false →
    ((s.tick k).latches.decPending = true ↔ s.dec.toNat < k)

/-- Counting k ticks at once is counting them one by one. The time base counts a tick exactly while TBEN is asserted
and the decrementer every tick, with the decrementer condition latched by the step from 0 to 0xFFFFFFFF (DEC is not
gated by TBEN: log entry 10); k + 1 ticks at once leave what k ticks and one more leave; the pending condition is
never cleared by counting. (R800, R804, R806) -/
def Obligations.TicksAreSingleTicks : Prop :=
  ∀ (s : State) (k : Nat),
    s.tick (k + 1) = (s.tick k).tick 1 ∧
    (s.tick 1).tb = (if s.pins.tben then s.tb + 1 else s.tb) ∧ (s.tick 1).dec = s.dec - 1 ∧
    (s.tick 1).latches.decPending =
      (s.latches.decPending || (!beBit s.dec 0 && beBit (s.tick 1).dec 0)) ∧
    (s.latches.decPending = true → (s.tick k).latches.decPending = true)

/-- What a boundary takes: checkstop, soft reset, machine check, the interrupts in their priority, power management.
u is the state after this boundary's input. With no hard reset, outside the checkstop state: CKSTP_IN is a
checkstop. Without it a pending soft reset is taken in any mode and consumed. Without that a machine check with
MSR[ME] = 0 is a checkstop, and with MSR[ME] = 1 the machine check exception: offset 0x00200, SRR1[10:15] the
causes, SRR1[30] = MSR[RI] only if MCP is the one cause, the MSR with ME cleared too, the causes consumed; its SRR0
is some address (log entry 38). With neither, MSR[EE] = 0 takes no exception, and MSR[EE] = 1 takes the system
management interrupt before the external, the external before the performance monitor, that before the decrementer,
each with SRR0 = pc. An exception is the whole step. A boundary that takes none goes on to the instruction, or with
MSR[POW] = 1 halts the processor (log entry 37). (R745, R747, R748, R777, R781, R782, R783, R789, R861) -/
def Obligations.InterruptsByPriority : Prop :=
  ∀ s : State,
    let x := s.takeInput.1
    let u := s.takeInput.2.applyInput x
    let takes (before : State) (vector : Word) : Prop :=
      ∃ t, s.boundary = (t, true) ∧ before.tookException t vector u.pc 0
    let stops : Prop := s.boundary = ({ u with latches := { u.latches with checkstop := true } }, true)
    let takesNone : Prop :=
      s.boundary = if u.msrPOW then ({ u with latches := { u.latches with halted := true } }, true) else (u, false)
    x.hreset = false → s.latches.checkstop = false → (x.ckstp = true → stops) ∧
    (x.ckstp = false →
      (u.latches.sreset = true → takes { u with latches := { u.latches with sreset := false } } 0x00100) ∧
      (u.latches.sreset = false → u.latches.mc ≠ McCause.none → (u.msrME = false → stops) ∧
        (u.msrME = true → ∃ t, s.boundary = (t, true) ∧ u.tookMachineCheck t u.latches.mc)) ∧
      (u.latches.sreset = false → u.latches.mc = McCause.none → (u.msrEE = false → takesNone) ∧
        (u.msrEE = true → (u.pins.smi = true → takes u 0x01400) ∧
          (u.pins.smi = false → u.pins.int = true → takes u 0x00500) ∧
          (u.pins.smi = false → u.pins.int = false → u.pm.pending = true →
            takes { u with pm := { u.pm with pending := false } } 0x00F00) ∧
          (u.pins.smi = false → u.pins.int = false → u.pm.pending = false →
            (u.latches.decPending = false → takesNone) ∧
            (u.latches.decPending = true →
              takes { u with latches := { u.latches with decPending := false } } 0x00900)))))

/-- The performance monitor at a boundary: what counts, what holds it, what signals and what a signal does. At a
boundary the counters that are enabled by MMCR0[0:4] in the mode of MSR[PR] and MSR[PM], not frozen and not halted,
add what their event adds: nothing for event 0 and reserved events, the transitions of the chosen time base bit for
event 3, else what the environment says (log entry 36). With PMCTRIGGER = 1 PMC2 to PMC4 are held until PMC1 has
been negative or an interrupt was signalled. The interrupt is signalled when ENINT = 1 and an enabled counter is
negative or the chosen bit went from 0 to 1: the condition is pending, ENINT is cleared, SIA gets the last completed
instruction (for a threshold event, with SDA, what the environment sampled), DISCOUNT freezes the counters. Nothing
but the monitor and the count of free values changes. (R831, R832, R833, R838, R840, R841, R846, R847,
92_eei_decisions.md D34 and D35) -/
def Obligations.PerformanceMonitor : Prop :=
  ∀ (s : State) (x : Input) (n : Nat),
    let m := s.pm.mmcr0
    let t := s.pmBoundary x n
    let adds (sel last inc : Nat) : Nat := if sel = 0 ∨ last < sel then 0 else if sel = 3 then n else inc
    let enabled : Prop := beBit m 0 = false ∧ ¬(beBit m 1 = true ∧ beBit s.msr 17 = false) ∧
      ¬(beBit m 2 = true ∧ beBit s.msr 17 = true) ∧ ¬(beBit m 3 = true ∧ beBit s.msr 29 = true) ∧
      ¬(beBit m 4 = true ∧ beBit s.msr 29 = false)
    let counts : Prop := enabled ∧ s.pm.frozen = false ∧ s.latches.halted = false
    let held : Prop := beBit m 18 = true ∧ s.pm.released = false ∧ beBit s.pm.pmc1 0 = false
    let sel1 := (m.extractLsb' 6 7).toNat
    let condition : Prop := (beBit m 16 = true ∧ beBit t.pm.pmc1 0 = true) ∨
      (beBit m 17 = true ∧ (beBit t.pm.pmc2 0 = true ∨ beBit t.pm.pmc3 0 = true ∨ beBit t.pm.pmc4 0 = true)) ∨
      (beBit m 9 = true ∧ 0 < n)
    let signal : Prop := beBit m 5 = true ∧ condition ∧ s.latches.halted = false
    let threshold : Prop := beBit m 16 = true ∧ beBit t.pm.pmc1 0 = true ∧ sel1 ∈ [9, 10, 23, 24]
    t = { s with pm := t.pm, fresh := t.fresh } ∧ t.pm.mmcr1 = s.pm.mmcr1 ∧
    (counts → t.pm.pmc1 = s.pm.pmc1 + BitVec.ofNat 32 (adds sel1 31 x.inc1)) ∧ (¬counts → t.pm.pmc1 = s.pm.pmc1) ∧
    (counts ∧ ¬held → t.pm.pmc2 = s.pm.pmc2 + BitVec.ofNat 32 (adds (m.extractLsb' 0 6).toNat 31 x.inc2) ∧
      t.pm.pmc3 = s.pm.pmc3 + BitVec.ofNat 32 (adds (s.pm.mmcr1.extractLsb' 27 5).toNat 30 x.inc3) ∧
      t.pm.pmc4 = s.pm.pmc4 + BitVec.ofNat 32 (adds (s.pm.mmcr1.extractLsb' 22 5).toNat 30 x.inc4)) ∧
    (¬(counts ∧ ¬held) → t.pm.pmc2 = s.pm.pmc2 ∧ t.pm.pmc3 = s.pm.pmc3 ∧ t.pm.pmc4 = s.pm.pmc4) ∧
    (signal → t.pm.pending = true ∧ t.pm.mmcr0 = m &&& 0xFBFFFFFF ∧ t.pm.frozen = (s.pm.frozen || beBit m 6) ∧
      t.pm.released = true ∧ (threshold → t.pm.sia = x.sampledIa ∧ t.pm.sda = x.sampledDa) ∧
      (¬threshold → t.pm.sia = s.lastIa)) ∧
    (¬signal → t.pm.pending = s.pm.pending ∧ t.pm.mmcr0 = m ∧ t.pm.frozen = s.pm.frozen ∧ t.pm.sia = s.pm.sia ∧
      t.pm.sda = s.pm.sda ∧ (t.pm.released = true ↔ s.pm.released = true ∨ (beBit m 18 = true ∧
        s.latches.halted = false ∧ (beBit s.pm.pmc1 0 = true ∨ beBit t.pm.pmc1 0 = true))))

/-- Every step keeps the machine well formed. From every state in which memory has its canonical form, pc is word-
aligned, the reserved bits of MSR, XER, FPSCR, HID0, EAR, SDR1 and MMCR1 are 0 and FPSCR[VX] and FPSCR[FEX] are the
summaries of the other bits, a step that answers a next state answers one in which all that holds. The canonical
form of memory is the model's own (log entry 2). (R14, R34, R39, R43, R52, R56, R59, R132, R428) -/
def Obligations.StepKeepsInvariant : Prop :=
  ∀ s t : State, s.Inv → step s = .next t → t.Inv

/-- The reset state has the values the spec gives and meets the invariant of every step. After reset pc is
0xFFF00100, MSR only has IP set, HID0 and FPSCR are 0, the external access, instruction and data breakpoints are
disabled, no reservation is held and nothing is pending. (The values of what the spec leaves undefined are the
model's, log entry 1, and are not stated.) The invariant that every step keeps holds at reset. (R110, R892) -/
def Obligations.ResetState : Prop :=
  let s := State.reset
  s.pc = 0xFFF00100 ∧ s.msr = 0x00000040 ∧ s.cfg.hid0 = 0 ∧ s.fpscr = 0 ∧ beBit s.cfg.ear 0 = false ∧
    beBit s.cfg.iabr 30 = false ∧ s.cfg.dabr &&& 3 = 0 ∧ s.resv = false ∧ s.latches.decPending = false ∧
    s.latches.sreset = false ∧ s.latches.checkstop = false ∧ s.latches.halted = false ∧ s.pm.pending = false ∧ s.Inv

/-- In user mode no instruction changes the supervisor state except by an exception. If an instruction executed with
MSR[PR] = 1 answers a next state, then either it took an exception (and the new state is in supervisor mode with
MSR[EE] = 0), or the MSR, the exception registers, the MMU and configuration registers, the performance monitor, the
time base, the decrementer and the pending conditions are as before. (R61, R650, R662, R736, R766) -/
def Obligations.UserModeKeepsSupervisorState : Prop :=
  ∀ (i : Instr) (s t : State), s.msrPR = true → s.took = false → exec i s = .next t →
    (t.took = true ∧ t.msrPR = false ∧ t.msrEE = false) ∨ (t.took = false ∧ t.supervisorPart = s.supervisorPart)
end

