-- ==== Sys2Proof/Laws/State.lean ====
section
/-! SUPPORT. Laws/State.lean: what each update of the state writes and what it leaves, one lemma a field. -/

namespace Sys2Proof.Machine

variable (s : State)

/-! ### writeGpr -/

@[simp] theorem State.writeGpr_gpr (r : Reg) (v : Word) : (s.writeGpr r v).gpr = s.gpr.set r.toNat v r.isLt := rfl
@[simp] theorem State.writeGpr_fpr (r : Reg) (v : Word) : (s.writeGpr r v).fpr = s.fpr := rfl
@[simp] theorem State.writeGpr_cr (r : Reg) (v : Word) : (s.writeGpr r v).cr = s.cr := rfl
@[simp] theorem State.writeGpr_fpscr (r : Reg) (v : Word) : (s.writeGpr r v).fpscr = s.fpscr := rfl
@[simp] theorem State.writeGpr_xer (r : Reg) (v : Word) : (s.writeGpr r v).xer = s.xer := rfl
@[simp] theorem State.writeGpr_lr (r : Reg) (v : Word) : (s.writeGpr r v).lr = s.lr := rfl
@[simp] theorem State.writeGpr_ctr (r : Reg) (v : Word) : (s.writeGpr r v).ctr = s.ctr := rfl
@[simp] theorem State.writeGpr_pc (r : Reg) (v : Word) : (s.writeGpr r v).pc = s.pc := rfl
@[simp] theorem State.writeGpr_msr (r : Reg) (v : Word) : (s.writeGpr r v).msr = s.msr := rfl
@[simp] theorem State.writeGpr_tb (r : Reg) (v : Word) : (s.writeGpr r v).tb = s.tb := rfl
@[simp] theorem State.writeGpr_dec (r : Reg) (v : Word) : (s.writeGpr r v).dec = s.dec := rfl
@[simp] theorem State.writeGpr_exc (r : Reg) (v : Word) : (s.writeGpr r v).exc = s.exc := rfl
@[simp] theorem State.writeGpr_mmu (r : Reg) (v : Word) : (s.writeGpr r v).mmu = s.mmu := rfl
@[simp] theorem State.writeGpr_cfg (r : Reg) (v : Word) : (s.writeGpr r v).cfg = s.cfg := rfl
@[simp] theorem State.writeGpr_pm (r : Reg) (v : Word) : (s.writeGpr r v).pm = s.pm := rfl
@[simp] theorem State.writeGpr_resv (r : Reg) (v : Word) : (s.writeGpr r v).resv = s.resv := rfl
@[simp] theorem State.writeGpr_resvAddr (r : Reg) (v : Word) : (s.writeGpr r v).resvAddr = s.resvAddr := rfl
@[simp] theorem State.writeGpr_itlb (r : Reg) (v : Word) : (s.writeGpr r v).itlb = s.itlb := rfl
@[simp] theorem State.writeGpr_dtlb (r : Reg) (v : Word) : (s.writeGpr r v).dtlb = s.dtlb := rfl
@[simp] theorem State.writeGpr_icache (r : Reg) (v : Word) : (s.writeGpr r v).icache = s.icache := rfl
@[simp] theorem State.writeGpr_dcache (r : Reg) (v : Word) : (s.writeGpr r v).dcache = s.dcache := rfl
@[simp] theorem State.writeGpr_latches (r : Reg) (v : Word) : (s.writeGpr r v).latches = s.latches := rfl
@[simp] theorem State.writeGpr_pins (r : Reg) (v : Word) : (s.writeGpr r v).pins = s.pins := rfl
@[simp] theorem State.writeGpr_mem (r : Reg) (v : Word) : (s.writeGpr r v).mem = s.mem := rfl
@[simp] theorem State.writeGpr_map (r : Reg) (v : Word) : (s.writeGpr r v).map = s.map := rfl
@[simp] theorem State.writeGpr_inputs (r : Reg) (v : Word) : (s.writeGpr r v).inputs = s.inputs := rfl
@[simp] theorem State.writeGpr_busLog (r : Reg) (v : Word) : (s.writeGpr r v).busLog = s.busLog := rfl
@[simp] theorem State.writeGpr_fresh (r : Reg) (v : Word) : (s.writeGpr r v).fresh = s.fresh := rfl
@[simp] theorem State.writeGpr_took (r : Reg) (v : Word) : (s.writeGpr r v).took = s.took := rfl
@[simp] theorem State.writeGpr_lastIa (r : Reg) (v : Word) : (s.writeGpr r v).lastIa = s.lastIa := rfl
@[simp] theorem State.writeGpr_tea (r : Reg) (v : Word) : (s.writeGpr r v).tea = s.tea := rfl
@[simp] theorem State.writeGpr_fprSingle (r : Reg) (v : Word) : (s.writeGpr r v).fprSingle = s.fprSingle := rfl
@[simp] theorem State.writeGpr_moved (r : Reg) (v : Word) : (s.writeGpr r v).moved = s.moved := rfl

/-! ### writeFpr -/

@[simp] theorem State.writeFpr_gpr (r : Reg) (v : Dword) : (s.writeFpr r v).gpr = s.gpr := rfl
@[simp] theorem State.writeFpr_fpr (r : Reg) (v : Dword) : (s.writeFpr r v).fpr = s.fpr.set r.toNat v r.isLt := rfl
@[simp] theorem State.writeFpr_cr (r : Reg) (v : Dword) : (s.writeFpr r v).cr = s.cr := rfl
@[simp] theorem State.writeFpr_fpscr (r : Reg) (v : Dword) : (s.writeFpr r v).fpscr = s.fpscr := rfl
@[simp] theorem State.writeFpr_xer (r : Reg) (v : Dword) : (s.writeFpr r v).xer = s.xer := rfl
@[simp] theorem State.writeFpr_lr (r : Reg) (v : Dword) : (s.writeFpr r v).lr = s.lr := rfl
@[simp] theorem State.writeFpr_ctr (r : Reg) (v : Dword) : (s.writeFpr r v).ctr = s.ctr := rfl
@[simp] theorem State.writeFpr_pc (r : Reg) (v : Dword) : (s.writeFpr r v).pc = s.pc := rfl
@[simp] theorem State.writeFpr_msr (r : Reg) (v : Dword) : (s.writeFpr r v).msr = s.msr := rfl
@[simp] theorem State.writeFpr_tb (r : Reg) (v : Dword) : (s.writeFpr r v).tb = s.tb := rfl
@[simp] theorem State.writeFpr_dec (r : Reg) (v : Dword) : (s.writeFpr r v).dec = s.dec := rfl
@[simp] theorem State.writeFpr_exc (r : Reg) (v : Dword) : (s.writeFpr r v).exc = s.exc := rfl
@[simp] theorem State.writeFpr_mmu (r : Reg) (v : Dword) : (s.writeFpr r v).mmu = s.mmu := rfl
@[simp] theorem State.writeFpr_cfg (r : Reg) (v : Dword) : (s.writeFpr r v).cfg = s.cfg := rfl
@[simp] theorem State.writeFpr_pm (r : Reg) (v : Dword) : (s.writeFpr r v).pm = s.pm := rfl
@[simp] theorem State.writeFpr_resv (r : Reg) (v : Dword) : (s.writeFpr r v).resv = s.resv := rfl
@[simp] theorem State.writeFpr_resvAddr (r : Reg) (v : Dword) : (s.writeFpr r v).resvAddr = s.resvAddr := rfl
@[simp] theorem State.writeFpr_itlb (r : Reg) (v : Dword) : (s.writeFpr r v).itlb = s.itlb := rfl
@[simp] theorem State.writeFpr_dtlb (r : Reg) (v : Dword) : (s.writeFpr r v).dtlb = s.dtlb := rfl
@[simp] theorem State.writeFpr_icache (r : Reg) (v : Dword) : (s.writeFpr r v).icache = s.icache := rfl
@[simp] theorem State.writeFpr_dcache (r : Reg) (v : Dword) : (s.writeFpr r v).dcache = s.dcache := rfl
@[simp] theorem State.writeFpr_latches (r : Reg) (v : Dword) : (s.writeFpr r v).latches = s.latches := rfl
@[simp] theorem State.writeFpr_pins (r : Reg) (v : Dword) : (s.writeFpr r v).pins = s.pins := rfl
@[simp] theorem State.writeFpr_mem (r : Reg) (v : Dword) : (s.writeFpr r v).mem = s.mem := rfl
@[simp] theorem State.writeFpr_map (r : Reg) (v : Dword) : (s.writeFpr r v).map = s.map := rfl
@[simp] theorem State.writeFpr_inputs (r : Reg) (v : Dword) : (s.writeFpr r v).inputs = s.inputs := rfl
@[simp] theorem State.writeFpr_busLog (r : Reg) (v : Dword) : (s.writeFpr r v).busLog = s.busLog := rfl
@[simp] theorem State.writeFpr_fresh (r : Reg) (v : Dword) : (s.writeFpr r v).fresh = s.fresh := rfl
@[simp] theorem State.writeFpr_took (r : Reg) (v : Dword) : (s.writeFpr r v).took = s.took := rfl
@[simp] theorem State.writeFpr_lastIa (r : Reg) (v : Dword) : (s.writeFpr r v).lastIa = s.lastIa := rfl
@[simp] theorem State.writeFpr_tea (r : Reg) (v : Dword) : (s.writeFpr r v).tea = s.tea := rfl
@[simp] theorem State.writeFpr_fprSingle (r : Reg) (v : Dword) : (s.writeFpr r v).fprSingle = s.fprSingle.set r.toNat false r.isLt := rfl
@[simp] theorem State.writeFpr_moved (r : Reg) (v : Dword) : (s.writeFpr r v).moved = s.moved := rfl

/-! ### putFpr -/

@[simp] theorem State.putFpr_gpr (b : Bool) (r : Reg) (v : Dword) : (s.putFpr b r v).gpr = s.gpr := rfl
@[simp] theorem State.putFpr_fpr (b : Bool) (r : Reg) (v : Dword) : (s.putFpr b r v).fpr = s.fpr.set r.toNat v r.isLt := rfl
@[simp] theorem State.putFpr_cr (b : Bool) (r : Reg) (v : Dword) : (s.putFpr b r v).cr = s.cr := rfl
@[simp] theorem State.putFpr_fpscr (b : Bool) (r : Reg) (v : Dword) : (s.putFpr b r v).fpscr = s.fpscr := rfl
@[simp] theorem State.putFpr_xer (b : Bool) (r : Reg) (v : Dword) : (s.putFpr b r v).xer = s.xer := rfl
@[simp] theorem State.putFpr_lr (b : Bool) (r : Reg) (v : Dword) : (s.putFpr b r v).lr = s.lr := rfl
@[simp] theorem State.putFpr_ctr (b : Bool) (r : Reg) (v : Dword) : (s.putFpr b r v).ctr = s.ctr := rfl
@[simp] theorem State.putFpr_pc (b : Bool) (r : Reg) (v : Dword) : (s.putFpr b r v).pc = s.pc := rfl
@[simp] theorem State.putFpr_msr (b : Bool) (r : Reg) (v : Dword) : (s.putFpr b r v).msr = s.msr := rfl
@[simp] theorem State.putFpr_tb (b : Bool) (r : Reg) (v : Dword) : (s.putFpr b r v).tb = s.tb := rfl
@[simp] theorem State.putFpr_dec (b : Bool) (r : Reg) (v : Dword) : (s.putFpr b r v).dec = s.dec := rfl
@[simp] theorem State.putFpr_exc (b : Bool) (r : Reg) (v : Dword) : (s.putFpr b r v).exc = s.exc := rfl
@[simp] theorem State.putFpr_mmu (b : Bool) (r : Reg) (v : Dword) : (s.putFpr b r v).mmu = s.mmu := rfl
@[simp] theorem State.putFpr_cfg (b : Bool) (r : Reg) (v : Dword) : (s.putFpr b r v).cfg = s.cfg := rfl
@[simp] theorem State.putFpr_pm (b : Bool) (r : Reg) (v : Dword) : (s.putFpr b r v).pm = s.pm := rfl
@[simp] theorem State.putFpr_resv (b : Bool) (r : Reg) (v : Dword) : (s.putFpr b r v).resv = s.resv := rfl
@[simp] theorem State.putFpr_resvAddr (b : Bool) (r : Reg) (v : Dword) : (s.putFpr b r v).resvAddr = s.resvAddr := rfl
@[simp] theorem State.putFpr_itlb (b : Bool) (r : Reg) (v : Dword) : (s.putFpr b r v).itlb = s.itlb := rfl
@[simp] theorem State.putFpr_dtlb (b : Bool) (r : Reg) (v : Dword) : (s.putFpr b r v).dtlb = s.dtlb := rfl
@[simp] theorem State.putFpr_icache (b : Bool) (r : Reg) (v : Dword) : (s.putFpr b r v).icache = s.icache := rfl
@[simp] theorem State.putFpr_dcache (b : Bool) (r : Reg) (v : Dword) : (s.putFpr b r v).dcache = s.dcache := rfl
@[simp] theorem State.putFpr_latches (b : Bool) (r : Reg) (v : Dword) : (s.putFpr b r v).latches = s.latches := rfl
@[simp] theorem State.putFpr_pins (b : Bool) (r : Reg) (v : Dword) : (s.putFpr b r v).pins = s.pins := rfl
@[simp] theorem State.putFpr_mem (b : Bool) (r : Reg) (v : Dword) : (s.putFpr b r v).mem = s.mem := rfl
@[simp] theorem State.putFpr_map (b : Bool) (r : Reg) (v : Dword) : (s.putFpr b r v).map = s.map := rfl
@[simp] theorem State.putFpr_inputs (b : Bool) (r : Reg) (v : Dword) : (s.putFpr b r v).inputs = s.inputs := rfl
@[simp] theorem State.putFpr_busLog (b : Bool) (r : Reg) (v : Dword) : (s.putFpr b r v).busLog = s.busLog := rfl
@[simp] theorem State.putFpr_fresh (b : Bool) (r : Reg) (v : Dword) : (s.putFpr b r v).fresh = s.fresh := rfl
@[simp] theorem State.putFpr_took (b : Bool) (r : Reg) (v : Dword) : (s.putFpr b r v).took = s.took := rfl
@[simp] theorem State.putFpr_lastIa (b : Bool) (r : Reg) (v : Dword) : (s.putFpr b r v).lastIa = s.lastIa := rfl
@[simp] theorem State.putFpr_tea (b : Bool) (r : Reg) (v : Dword) : (s.putFpr b r v).tea = s.tea := rfl
@[simp] theorem State.putFpr_fprSingle (b : Bool) (r : Reg) (v : Dword) : (s.putFpr b r v).fprSingle = s.fprSingle.set r.toNat b r.isLt := rfl
@[simp] theorem State.putFpr_moved (b : Bool) (r : Reg) (v : Dword) : (s.putFpr b r v).moved = s.moved := rfl

/-! ### advance -/

@[simp] theorem State.advance_gpr : s.advance.gpr = s.gpr := rfl
@[simp] theorem State.advance_fpr : s.advance.fpr = s.fpr := rfl
@[simp] theorem State.advance_cr : s.advance.cr = s.cr := rfl
@[simp] theorem State.advance_fpscr : s.advance.fpscr = s.fpscr := rfl
@[simp] theorem State.advance_xer : s.advance.xer = s.xer := rfl
@[simp] theorem State.advance_lr : s.advance.lr = s.lr := rfl
@[simp] theorem State.advance_ctr : s.advance.ctr = s.ctr := rfl
@[simp] theorem State.advance_pc : s.advance.pc = s.pc + 4 := rfl
@[simp] theorem State.advance_msr : s.advance.msr = s.msr := rfl
@[simp] theorem State.advance_tb : s.advance.tb = s.tb := rfl
@[simp] theorem State.advance_dec : s.advance.dec = s.dec := rfl
@[simp] theorem State.advance_exc : s.advance.exc = s.exc := rfl
@[simp] theorem State.advance_mmu : s.advance.mmu = s.mmu := rfl
@[simp] theorem State.advance_cfg : s.advance.cfg = s.cfg := rfl
@[simp] theorem State.advance_pm : s.advance.pm = s.pm := rfl
@[simp] theorem State.advance_resv : s.advance.resv = s.resv := rfl
@[simp] theorem State.advance_resvAddr : s.advance.resvAddr = s.resvAddr := rfl
@[simp] theorem State.advance_itlb : s.advance.itlb = s.itlb := rfl
@[simp] theorem State.advance_dtlb : s.advance.dtlb = s.dtlb := rfl
@[simp] theorem State.advance_icache : s.advance.icache = s.icache := rfl
@[simp] theorem State.advance_dcache : s.advance.dcache = s.dcache := rfl
@[simp] theorem State.advance_latches : s.advance.latches = s.latches := rfl
@[simp] theorem State.advance_pins : s.advance.pins = s.pins := rfl
@[simp] theorem State.advance_mem : s.advance.mem = s.mem := rfl
@[simp] theorem State.advance_map : s.advance.map = s.map := rfl
@[simp] theorem State.advance_inputs : s.advance.inputs = s.inputs := rfl
@[simp] theorem State.advance_busLog : s.advance.busLog = s.busLog := rfl
@[simp] theorem State.advance_fresh : s.advance.fresh = s.fresh := rfl
@[simp] theorem State.advance_took : s.advance.took = s.took := rfl
@[simp] theorem State.advance_lastIa : s.advance.lastIa = s.lastIa := rfl
@[simp] theorem State.advance_tea : s.advance.tea = s.tea := rfl
@[simp] theorem State.advance_fprSingle : s.advance.fprSingle = s.fprSingle := rfl
@[simp] theorem State.advance_moved : s.advance.moved = s.moved := rfl

/-! ### setCa -/

@[simp] theorem State.setCa_gpr (b : Bool) : (s.setCa b).gpr = s.gpr := rfl
@[simp] theorem State.setCa_fpr (b : Bool) : (s.setCa b).fpr = s.fpr := rfl
@[simp] theorem State.setCa_cr (b : Bool) : (s.setCa b).cr = s.cr := rfl
@[simp] theorem State.setCa_fpscr (b : Bool) : (s.setCa b).fpscr = s.fpscr := rfl
@[simp] theorem State.setCa_xer (b : Bool) : (s.setCa b).xer = setBeBit s.xer 2 b := rfl
@[simp] theorem State.setCa_lr (b : Bool) : (s.setCa b).lr = s.lr := rfl
@[simp] theorem State.setCa_ctr (b : Bool) : (s.setCa b).ctr = s.ctr := rfl
@[simp] theorem State.setCa_pc (b : Bool) : (s.setCa b).pc = s.pc := rfl
@[simp] theorem State.setCa_msr (b : Bool) : (s.setCa b).msr = s.msr := rfl
@[simp] theorem State.setCa_tb (b : Bool) : (s.setCa b).tb = s.tb := rfl
@[simp] theorem State.setCa_dec (b : Bool) : (s.setCa b).dec = s.dec := rfl
@[simp] theorem State.setCa_exc (b : Bool) : (s.setCa b).exc = s.exc := rfl
@[simp] theorem State.setCa_mmu (b : Bool) : (s.setCa b).mmu = s.mmu := rfl
@[simp] theorem State.setCa_cfg (b : Bool) : (s.setCa b).cfg = s.cfg := rfl
@[simp] theorem State.setCa_pm (b : Bool) : (s.setCa b).pm = s.pm := rfl
@[simp] theorem State.setCa_resv (b : Bool) : (s.setCa b).resv = s.resv := rfl
@[simp] theorem State.setCa_resvAddr (b : Bool) : (s.setCa b).resvAddr = s.resvAddr := rfl
@[simp] theorem State.setCa_itlb (b : Bool) : (s.setCa b).itlb = s.itlb := rfl
@[simp] theorem State.setCa_dtlb (b : Bool) : (s.setCa b).dtlb = s.dtlb := rfl
@[simp] theorem State.setCa_icache (b : Bool) : (s.setCa b).icache = s.icache := rfl
@[simp] theorem State.setCa_dcache (b : Bool) : (s.setCa b).dcache = s.dcache := rfl
@[simp] theorem State.setCa_latches (b : Bool) : (s.setCa b).latches = s.latches := rfl
@[simp] theorem State.setCa_pins (b : Bool) : (s.setCa b).pins = s.pins := rfl
@[simp] theorem State.setCa_mem (b : Bool) : (s.setCa b).mem = s.mem := rfl
@[simp] theorem State.setCa_map (b : Bool) : (s.setCa b).map = s.map := rfl
@[simp] theorem State.setCa_inputs (b : Bool) : (s.setCa b).inputs = s.inputs := rfl
@[simp] theorem State.setCa_busLog (b : Bool) : (s.setCa b).busLog = s.busLog := rfl
@[simp] theorem State.setCa_fresh (b : Bool) : (s.setCa b).fresh = s.fresh := rfl
@[simp] theorem State.setCa_took (b : Bool) : (s.setCa b).took = s.took := rfl
@[simp] theorem State.setCa_lastIa (b : Bool) : (s.setCa b).lastIa = s.lastIa := rfl
@[simp] theorem State.setCa_tea (b : Bool) : (s.setCa b).tea = s.tea := rfl
@[simp] theorem State.setCa_fprSingle (b : Bool) : (s.setCa b).fprSingle = s.fprSingle := rfl
@[simp] theorem State.setCa_moved (b : Bool) : (s.setCa b).moved = s.moved := rfl

/-! ### setOv -/

@[simp] theorem State.setOv_gpr (b : Bool) : (s.setOv b).gpr = s.gpr := rfl
@[simp] theorem State.setOv_fpr (b : Bool) : (s.setOv b).fpr = s.fpr := rfl
@[simp] theorem State.setOv_cr (b : Bool) : (s.setOv b).cr = s.cr := rfl
@[simp] theorem State.setOv_fpscr (b : Bool) : (s.setOv b).fpscr = s.fpscr := rfl
@[simp] theorem State.setOv_xer (b : Bool) : (s.setOv b).xer = setBeBit (setBeBit s.xer 1 b) 0 (s.xerSO || b) := rfl
@[simp] theorem State.setOv_lr (b : Bool) : (s.setOv b).lr = s.lr := rfl
@[simp] theorem State.setOv_ctr (b : Bool) : (s.setOv b).ctr = s.ctr := rfl
@[simp] theorem State.setOv_pc (b : Bool) : (s.setOv b).pc = s.pc := rfl
@[simp] theorem State.setOv_msr (b : Bool) : (s.setOv b).msr = s.msr := rfl
@[simp] theorem State.setOv_tb (b : Bool) : (s.setOv b).tb = s.tb := rfl
@[simp] theorem State.setOv_dec (b : Bool) : (s.setOv b).dec = s.dec := rfl
@[simp] theorem State.setOv_exc (b : Bool) : (s.setOv b).exc = s.exc := rfl
@[simp] theorem State.setOv_mmu (b : Bool) : (s.setOv b).mmu = s.mmu := rfl
@[simp] theorem State.setOv_cfg (b : Bool) : (s.setOv b).cfg = s.cfg := rfl
@[simp] theorem State.setOv_pm (b : Bool) : (s.setOv b).pm = s.pm := rfl
@[simp] theorem State.setOv_resv (b : Bool) : (s.setOv b).resv = s.resv := rfl
@[simp] theorem State.setOv_resvAddr (b : Bool) : (s.setOv b).resvAddr = s.resvAddr := rfl
@[simp] theorem State.setOv_itlb (b : Bool) : (s.setOv b).itlb = s.itlb := rfl
@[simp] theorem State.setOv_dtlb (b : Bool) : (s.setOv b).dtlb = s.dtlb := rfl
@[simp] theorem State.setOv_icache (b : Bool) : (s.setOv b).icache = s.icache := rfl
@[simp] theorem State.setOv_dcache (b : Bool) : (s.setOv b).dcache = s.dcache := rfl
@[simp] theorem State.setOv_latches (b : Bool) : (s.setOv b).latches = s.latches := rfl
@[simp] theorem State.setOv_pins (b : Bool) : (s.setOv b).pins = s.pins := rfl
@[simp] theorem State.setOv_mem (b : Bool) : (s.setOv b).mem = s.mem := rfl
@[simp] theorem State.setOv_map (b : Bool) : (s.setOv b).map = s.map := rfl
@[simp] theorem State.setOv_inputs (b : Bool) : (s.setOv b).inputs = s.inputs := rfl
@[simp] theorem State.setOv_busLog (b : Bool) : (s.setOv b).busLog = s.busLog := rfl
@[simp] theorem State.setOv_fresh (b : Bool) : (s.setOv b).fresh = s.fresh := rfl
@[simp] theorem State.setOv_took (b : Bool) : (s.setOv b).took = s.took := rfl
@[simp] theorem State.setOv_lastIa (b : Bool) : (s.setOv b).lastIa = s.lastIa := rfl
@[simp] theorem State.setOv_tea (b : Bool) : (s.setOv b).tea = s.tea := rfl
@[simp] theorem State.setOv_fprSingle (b : Bool) : (s.setOv b).fprSingle = s.fprSingle := rfl
@[simp] theorem State.setOv_moved (b : Bool) : (s.setOv b).moved = s.moved := rfl

/-! ### setCrField -/

@[simp] theorem State.setCrField_gpr (n : Nat) (v : BitVec 4) : (s.setCrField n v).gpr = s.gpr := rfl
@[simp] theorem State.setCrField_fpr (n : Nat) (v : BitVec 4) : (s.setCrField n v).fpr = s.fpr := rfl
@[simp] theorem State.setCrField_cr (n : Nat) (v : BitVec 4) : (s.setCrField n v).cr = setField4 s.cr n v := rfl
@[simp] theorem State.setCrField_fpscr (n : Nat) (v : BitVec 4) : (s.setCrField n v).fpscr = s.fpscr := rfl
@[simp] theorem State.setCrField_xer (n : Nat) (v : BitVec 4) : (s.setCrField n v).xer = s.xer := rfl
@[simp] theorem State.setCrField_lr (n : Nat) (v : BitVec 4) : (s.setCrField n v).lr = s.lr := rfl
@[simp] theorem State.setCrField_ctr (n : Nat) (v : BitVec 4) : (s.setCrField n v).ctr = s.ctr := rfl
@[simp] theorem State.setCrField_pc (n : Nat) (v : BitVec 4) : (s.setCrField n v).pc = s.pc := rfl
@[simp] theorem State.setCrField_msr (n : Nat) (v : BitVec 4) : (s.setCrField n v).msr = s.msr := rfl
@[simp] theorem State.setCrField_tb (n : Nat) (v : BitVec 4) : (s.setCrField n v).tb = s.tb := rfl
@[simp] theorem State.setCrField_dec (n : Nat) (v : BitVec 4) : (s.setCrField n v).dec = s.dec := rfl
@[simp] theorem State.setCrField_exc (n : Nat) (v : BitVec 4) : (s.setCrField n v).exc = s.exc := rfl
@[simp] theorem State.setCrField_mmu (n : Nat) (v : BitVec 4) : (s.setCrField n v).mmu = s.mmu := rfl
@[simp] theorem State.setCrField_cfg (n : Nat) (v : BitVec 4) : (s.setCrField n v).cfg = s.cfg := rfl
@[simp] theorem State.setCrField_pm (n : Nat) (v : BitVec 4) : (s.setCrField n v).pm = s.pm := rfl
@[simp] theorem State.setCrField_resv (n : Nat) (v : BitVec 4) : (s.setCrField n v).resv = s.resv := rfl
@[simp] theorem State.setCrField_resvAddr (n : Nat) (v : BitVec 4) : (s.setCrField n v).resvAddr = s.resvAddr := rfl
@[simp] theorem State.setCrField_itlb (n : Nat) (v : BitVec 4) : (s.setCrField n v).itlb = s.itlb := rfl
@[simp] theorem State.setCrField_dtlb (n : Nat) (v : BitVec 4) : (s.setCrField n v).dtlb = s.dtlb := rfl
@[simp] theorem State.setCrField_icache (n : Nat) (v : BitVec 4) : (s.setCrField n v).icache = s.icache := rfl
@[simp] theorem State.setCrField_dcache (n : Nat) (v : BitVec 4) : (s.setCrField n v).dcache = s.dcache := rfl
@[simp] theorem State.setCrField_latches (n : Nat) (v : BitVec 4) : (s.setCrField n v).latches = s.latches := rfl
@[simp] theorem State.setCrField_pins (n : Nat) (v : BitVec 4) : (s.setCrField n v).pins = s.pins := rfl
@[simp] theorem State.setCrField_mem (n : Nat) (v : BitVec 4) : (s.setCrField n v).mem = s.mem := rfl
@[simp] theorem State.setCrField_map (n : Nat) (v : BitVec 4) : (s.setCrField n v).map = s.map := rfl
@[simp] theorem State.setCrField_inputs (n : Nat) (v : BitVec 4) : (s.setCrField n v).inputs = s.inputs := rfl
@[simp] theorem State.setCrField_busLog (n : Nat) (v : BitVec 4) : (s.setCrField n v).busLog = s.busLog := rfl
@[simp] theorem State.setCrField_fresh (n : Nat) (v : BitVec 4) : (s.setCrField n v).fresh = s.fresh := rfl
@[simp] theorem State.setCrField_took (n : Nat) (v : BitVec 4) : (s.setCrField n v).took = s.took := rfl
@[simp] theorem State.setCrField_lastIa (n : Nat) (v : BitVec 4) : (s.setCrField n v).lastIa = s.lastIa := rfl
@[simp] theorem State.setCrField_tea (n : Nat) (v : BitVec 4) : (s.setCrField n v).tea = s.tea := rfl
@[simp] theorem State.setCrField_fprSingle (n : Nat) (v : BitVec 4) : (s.setCrField n v).fprSingle = s.fprSingle := rfl
@[simp] theorem State.setCrField_moved (n : Nat) (v : BitVec 4) : (s.setCrField n v).moved = s.moved := rfl

/-! ### logBus -/

@[simp] theorem State.logBus_gpr (op : BusOp) : (s.logBus op).gpr = s.gpr := rfl
@[simp] theorem State.logBus_fpr (op : BusOp) : (s.logBus op).fpr = s.fpr := rfl
@[simp] theorem State.logBus_cr (op : BusOp) : (s.logBus op).cr = s.cr := rfl
@[simp] theorem State.logBus_fpscr (op : BusOp) : (s.logBus op).fpscr = s.fpscr := rfl
@[simp] theorem State.logBus_xer (op : BusOp) : (s.logBus op).xer = s.xer := rfl
@[simp] theorem State.logBus_lr (op : BusOp) : (s.logBus op).lr = s.lr := rfl
@[simp] theorem State.logBus_ctr (op : BusOp) : (s.logBus op).ctr = s.ctr := rfl
@[simp] theorem State.logBus_pc (op : BusOp) : (s.logBus op).pc = s.pc := rfl
@[simp] theorem State.logBus_msr (op : BusOp) : (s.logBus op).msr = s.msr := rfl
@[simp] theorem State.logBus_tb (op : BusOp) : (s.logBus op).tb = s.tb := rfl
@[simp] theorem State.logBus_dec (op : BusOp) : (s.logBus op).dec = s.dec := rfl
@[simp] theorem State.logBus_exc (op : BusOp) : (s.logBus op).exc = s.exc := rfl
@[simp] theorem State.logBus_mmu (op : BusOp) : (s.logBus op).mmu = s.mmu := rfl
@[simp] theorem State.logBus_cfg (op : BusOp) : (s.logBus op).cfg = s.cfg := rfl
@[simp] theorem State.logBus_pm (op : BusOp) : (s.logBus op).pm = s.pm := rfl
@[simp] theorem State.logBus_resv (op : BusOp) : (s.logBus op).resv = s.resv := rfl
@[simp] theorem State.logBus_resvAddr (op : BusOp) : (s.logBus op).resvAddr = s.resvAddr := rfl
@[simp] theorem State.logBus_itlb (op : BusOp) : (s.logBus op).itlb = s.itlb := rfl
@[simp] theorem State.logBus_dtlb (op : BusOp) : (s.logBus op).dtlb = s.dtlb := rfl
@[simp] theorem State.logBus_icache (op : BusOp) : (s.logBus op).icache = s.icache := rfl
@[simp] theorem State.logBus_dcache (op : BusOp) : (s.logBus op).dcache = s.dcache := rfl
@[simp] theorem State.logBus_latches (op : BusOp) : (s.logBus op).latches = s.latches := rfl
@[simp] theorem State.logBus_pins (op : BusOp) : (s.logBus op).pins = s.pins := rfl
@[simp] theorem State.logBus_mem (op : BusOp) : (s.logBus op).mem = s.mem := rfl
@[simp] theorem State.logBus_map (op : BusOp) : (s.logBus op).map = s.map := rfl
@[simp] theorem State.logBus_inputs (op : BusOp) : (s.logBus op).inputs = s.inputs := rfl
@[simp] theorem State.logBus_busLog (op : BusOp) : (s.logBus op).busLog = op :: s.busLog := rfl
@[simp] theorem State.logBus_fresh (op : BusOp) : (s.logBus op).fresh = s.fresh := rfl
@[simp] theorem State.logBus_took (op : BusOp) : (s.logBus op).took = s.took := rfl
@[simp] theorem State.logBus_lastIa (op : BusOp) : (s.logBus op).lastIa = s.lastIa := rfl
@[simp] theorem State.logBus_tea (op : BusOp) : (s.logBus op).tea = s.tea := rfl
@[simp] theorem State.logBus_fprSingle (op : BusOp) : (s.logBus op).fprSingle = s.fprSingle := rfl
@[simp] theorem State.logBus_moved (op : BusOp) : (s.logBus op).moved = s.moved := rfl

/-! ### logTenure -/

@[simp] theorem State.logTenure_gpr (k : BusKind) (pa : Word) (w : BitVec 3) (n : Nat) : (s.logTenure k pa w n).gpr = s.gpr := rfl
@[simp] theorem State.logTenure_fpr (k : BusKind) (pa : Word) (w : BitVec 3) (n : Nat) : (s.logTenure k pa w n).fpr = s.fpr := rfl
@[simp] theorem State.logTenure_cr (k : BusKind) (pa : Word) (w : BitVec 3) (n : Nat) : (s.logTenure k pa w n).cr = s.cr := rfl
@[simp] theorem State.logTenure_fpscr (k : BusKind) (pa : Word) (w : BitVec 3) (n : Nat) : (s.logTenure k pa w n).fpscr = s.fpscr := rfl
@[simp] theorem State.logTenure_xer (k : BusKind) (pa : Word) (w : BitVec 3) (n : Nat) : (s.logTenure k pa w n).xer = s.xer := rfl
@[simp] theorem State.logTenure_lr (k : BusKind) (pa : Word) (w : BitVec 3) (n : Nat) : (s.logTenure k pa w n).lr = s.lr := rfl
@[simp] theorem State.logTenure_ctr (k : BusKind) (pa : Word) (w : BitVec 3) (n : Nat) : (s.logTenure k pa w n).ctr = s.ctr := rfl
@[simp] theorem State.logTenure_pc (k : BusKind) (pa : Word) (w : BitVec 3) (n : Nat) : (s.logTenure k pa w n).pc = s.pc := rfl
@[simp] theorem State.logTenure_msr (k : BusKind) (pa : Word) (w : BitVec 3) (n : Nat) : (s.logTenure k pa w n).msr = s.msr := rfl
@[simp] theorem State.logTenure_tb (k : BusKind) (pa : Word) (w : BitVec 3) (n : Nat) : (s.logTenure k pa w n).tb = s.tb := rfl
@[simp] theorem State.logTenure_dec (k : BusKind) (pa : Word) (w : BitVec 3) (n : Nat) : (s.logTenure k pa w n).dec = s.dec := rfl
@[simp] theorem State.logTenure_exc (k : BusKind) (pa : Word) (w : BitVec 3) (n : Nat) : (s.logTenure k pa w n).exc = s.exc := rfl
@[simp] theorem State.logTenure_mmu (k : BusKind) (pa : Word) (w : BitVec 3) (n : Nat) : (s.logTenure k pa w n).mmu = s.mmu := rfl
@[simp] theorem State.logTenure_cfg (k : BusKind) (pa : Word) (w : BitVec 3) (n : Nat) : (s.logTenure k pa w n).cfg = s.cfg := rfl
@[simp] theorem State.logTenure_pm (k : BusKind) (pa : Word) (w : BitVec 3) (n : Nat) : (s.logTenure k pa w n).pm = s.pm := rfl
@[simp] theorem State.logTenure_resv (k : BusKind) (pa : Word) (w : BitVec 3) (n : Nat) : (s.logTenure k pa w n).resv = s.resv := rfl
@[simp] theorem State.logTenure_resvAddr (k : BusKind) (pa : Word) (w : BitVec 3) (n : Nat) : (s.logTenure k pa w n).resvAddr = s.resvAddr := rfl
@[simp] theorem State.logTenure_itlb (k : BusKind) (pa : Word) (w : BitVec 3) (n : Nat) : (s.logTenure k pa w n).itlb = s.itlb := rfl
@[simp] theorem State.logTenure_dtlb (k : BusKind) (pa : Word) (w : BitVec 3) (n : Nat) : (s.logTenure k pa w n).dtlb = s.dtlb := rfl
@[simp] theorem State.logTenure_icache (k : BusKind) (pa : Word) (w : BitVec 3) (n : Nat) : (s.logTenure k pa w n).icache = s.icache := rfl
@[simp] theorem State.logTenure_dcache (k : BusKind) (pa : Word) (w : BitVec 3) (n : Nat) : (s.logTenure k pa w n).dcache = s.dcache := rfl
@[simp] theorem State.logTenure_latches (k : BusKind) (pa : Word) (w : BitVec 3) (n : Nat) : (s.logTenure k pa w n).latches = s.latches := rfl
@[simp] theorem State.logTenure_pins (k : BusKind) (pa : Word) (w : BitVec 3) (n : Nat) : (s.logTenure k pa w n).pins = s.pins := rfl
@[simp] theorem State.logTenure_mem (k : BusKind) (pa : Word) (w : BitVec 3) (n : Nat) : (s.logTenure k pa w n).mem = s.mem := rfl
@[simp] theorem State.logTenure_map (k : BusKind) (pa : Word) (w : BitVec 3) (n : Nat) : (s.logTenure k pa w n).map = s.map := rfl
@[simp] theorem State.logTenure_inputs (k : BusKind) (pa : Word) (w : BitVec 3) (n : Nat) : (s.logTenure k pa w n).inputs = s.inputs := rfl
@[simp] theorem State.logTenure_busLog (k : BusKind) (pa : Word) (w : BitVec 3) (n : Nat) : (s.logTenure k pa w n).busLog = .tenure k pa w (w.getLsbD 0) n :: s.busLog := rfl
@[simp] theorem State.logTenure_fresh (k : BusKind) (pa : Word) (w : BitVec 3) (n : Nat) : (s.logTenure k pa w n).fresh = s.fresh := rfl
@[simp] theorem State.logTenure_took (k : BusKind) (pa : Word) (w : BitVec 3) (n : Nat) : (s.logTenure k pa w n).took = s.took := rfl
@[simp] theorem State.logTenure_lastIa (k : BusKind) (pa : Word) (w : BitVec 3) (n : Nat) : (s.logTenure k pa w n).lastIa = s.lastIa := rfl
@[simp] theorem State.logTenure_tea (k : BusKind) (pa : Word) (w : BitVec 3) (n : Nat) : (s.logTenure k pa w n).tea = s.tea := rfl
@[simp] theorem State.logTenure_fprSingle (k : BusKind) (pa : Word) (w : BitVec 3) (n : Nat) : (s.logTenure k pa w n).fprSingle = s.fprSingle := rfl
@[simp] theorem State.logTenure_moved (k : BusKind) (pa : Word) (w : BitVec 3) (n : Nat) : (s.logTenure k pa w n).moved = s.moved := rfl

/-! ### drawWord -/

@[simp] theorem State.drawWord_gpr : s.drawWord.2.gpr = s.gpr := rfl
@[simp] theorem State.drawWord_fpr : s.drawWord.2.fpr = s.fpr := rfl
@[simp] theorem State.drawWord_cr : s.drawWord.2.cr = s.cr := rfl
@[simp] theorem State.drawWord_fpscr : s.drawWord.2.fpscr = s.fpscr := rfl
@[simp] theorem State.drawWord_xer : s.drawWord.2.xer = s.xer := rfl
@[simp] theorem State.drawWord_lr : s.drawWord.2.lr = s.lr := rfl
@[simp] theorem State.drawWord_ctr : s.drawWord.2.ctr = s.ctr := rfl
@[simp] theorem State.drawWord_pc : s.drawWord.2.pc = s.pc := rfl
@[simp] theorem State.drawWord_msr : s.drawWord.2.msr = s.msr := rfl
@[simp] theorem State.drawWord_tb : s.drawWord.2.tb = s.tb := rfl
@[simp] theorem State.drawWord_dec : s.drawWord.2.dec = s.dec := rfl
@[simp] theorem State.drawWord_exc : s.drawWord.2.exc = s.exc := rfl
@[simp] theorem State.drawWord_mmu : s.drawWord.2.mmu = s.mmu := rfl
@[simp] theorem State.drawWord_cfg : s.drawWord.2.cfg = s.cfg := rfl
@[simp] theorem State.drawWord_pm : s.drawWord.2.pm = s.pm := rfl
@[simp] theorem State.drawWord_resv : s.drawWord.2.resv = s.resv := rfl
@[simp] theorem State.drawWord_resvAddr : s.drawWord.2.resvAddr = s.resvAddr := rfl
@[simp] theorem State.drawWord_itlb : s.drawWord.2.itlb = s.itlb := rfl
@[simp] theorem State.drawWord_dtlb : s.drawWord.2.dtlb = s.dtlb := rfl
@[simp] theorem State.drawWord_icache : s.drawWord.2.icache = s.icache := rfl
@[simp] theorem State.drawWord_dcache : s.drawWord.2.dcache = s.dcache := rfl
@[simp] theorem State.drawWord_latches : s.drawWord.2.latches = s.latches := rfl
@[simp] theorem State.drawWord_pins : s.drawWord.2.pins = s.pins := rfl
@[simp] theorem State.drawWord_mem : s.drawWord.2.mem = s.mem := rfl
@[simp] theorem State.drawWord_map : s.drawWord.2.map = s.map := rfl
@[simp] theorem State.drawWord_inputs : s.drawWord.2.inputs = s.inputs := rfl
@[simp] theorem State.drawWord_busLog : s.drawWord.2.busLog = s.busLog := rfl
@[simp] theorem State.drawWord_fresh : s.drawWord.2.fresh = s.fresh + 1 := rfl
@[simp] theorem State.drawWord_took : s.drawWord.2.took = s.took := rfl
@[simp] theorem State.drawWord_lastIa : s.drawWord.2.lastIa = s.lastIa := rfl
@[simp] theorem State.drawWord_tea : s.drawWord.2.tea = s.tea := rfl
@[simp] theorem State.drawWord_fprSingle : s.drawWord.2.fprSingle = s.fprSingle := rfl
@[simp] theorem State.drawWord_moved : s.drawWord.2.moved = s.moved := rfl

/-! ### drawDword -/

@[simp] theorem State.drawDword_gpr : s.drawDword.2.gpr = s.gpr := rfl
@[simp] theorem State.drawDword_fpr : s.drawDword.2.fpr = s.fpr := rfl
@[simp] theorem State.drawDword_cr : s.drawDword.2.cr = s.cr := rfl
@[simp] theorem State.drawDword_fpscr : s.drawDword.2.fpscr = s.fpscr := rfl
@[simp] theorem State.drawDword_xer : s.drawDword.2.xer = s.xer := rfl
@[simp] theorem State.drawDword_lr : s.drawDword.2.lr = s.lr := rfl
@[simp] theorem State.drawDword_ctr : s.drawDword.2.ctr = s.ctr := rfl
@[simp] theorem State.drawDword_pc : s.drawDword.2.pc = s.pc := rfl
@[simp] theorem State.drawDword_msr : s.drawDword.2.msr = s.msr := rfl
@[simp] theorem State.drawDword_tb : s.drawDword.2.tb = s.tb := rfl
@[simp] theorem State.drawDword_dec : s.drawDword.2.dec = s.dec := rfl
@[simp] theorem State.drawDword_exc : s.drawDword.2.exc = s.exc := rfl
@[simp] theorem State.drawDword_mmu : s.drawDword.2.mmu = s.mmu := rfl
@[simp] theorem State.drawDword_cfg : s.drawDword.2.cfg = s.cfg := rfl
@[simp] theorem State.drawDword_pm : s.drawDword.2.pm = s.pm := rfl
@[simp] theorem State.drawDword_resv : s.drawDword.2.resv = s.resv := rfl
@[simp] theorem State.drawDword_resvAddr : s.drawDword.2.resvAddr = s.resvAddr := rfl
@[simp] theorem State.drawDword_itlb : s.drawDword.2.itlb = s.itlb := rfl
@[simp] theorem State.drawDword_dtlb : s.drawDword.2.dtlb = s.dtlb := rfl
@[simp] theorem State.drawDword_icache : s.drawDword.2.icache = s.icache := rfl
@[simp] theorem State.drawDword_dcache : s.drawDword.2.dcache = s.dcache := rfl
@[simp] theorem State.drawDword_latches : s.drawDword.2.latches = s.latches := rfl
@[simp] theorem State.drawDword_pins : s.drawDword.2.pins = s.pins := rfl
@[simp] theorem State.drawDword_mem : s.drawDword.2.mem = s.mem := rfl
@[simp] theorem State.drawDword_map : s.drawDword.2.map = s.map := rfl
@[simp] theorem State.drawDword_inputs : s.drawDword.2.inputs = s.inputs := rfl
@[simp] theorem State.drawDword_busLog : s.drawDword.2.busLog = s.busLog := rfl
@[simp] theorem State.drawDword_fresh : s.drawDword.2.fresh = s.fresh + 1 := rfl
@[simp] theorem State.drawDword_took : s.drawDword.2.took = s.took := rfl
@[simp] theorem State.drawDword_lastIa : s.drawDword.2.lastIa = s.lastIa := rfl
@[simp] theorem State.drawDword_tea : s.drawDword.2.tea = s.tea := rfl
@[simp] theorem State.drawDword_fprSingle : s.drawDword.2.fprSingle = s.fprSingle := rfl
@[simp] theorem State.drawDword_moved : s.drawDword.2.moved = s.moved := rfl

/-! ### drawBit -/

@[simp] theorem State.drawBit_gpr : s.drawBit.2.gpr = s.gpr := rfl
@[simp] theorem State.drawBit_fpr : s.drawBit.2.fpr = s.fpr := rfl
@[simp] theorem State.drawBit_cr : s.drawBit.2.cr = s.cr := rfl
@[simp] theorem State.drawBit_fpscr : s.drawBit.2.fpscr = s.fpscr := rfl
@[simp] theorem State.drawBit_xer : s.drawBit.2.xer = s.xer := rfl
@[simp] theorem State.drawBit_lr : s.drawBit.2.lr = s.lr := rfl
@[simp] theorem State.drawBit_ctr : s.drawBit.2.ctr = s.ctr := rfl
@[simp] theorem State.drawBit_pc : s.drawBit.2.pc = s.pc := rfl
@[simp] theorem State.drawBit_msr : s.drawBit.2.msr = s.msr := rfl
@[simp] theorem State.drawBit_tb : s.drawBit.2.tb = s.tb := rfl
@[simp] theorem State.drawBit_dec : s.drawBit.2.dec = s.dec := rfl
@[simp] theorem State.drawBit_exc : s.drawBit.2.exc = s.exc := rfl
@[simp] theorem State.drawBit_mmu : s.drawBit.2.mmu = s.mmu := rfl
@[simp] theorem State.drawBit_cfg : s.drawBit.2.cfg = s.cfg := rfl
@[simp] theorem State.drawBit_pm : s.drawBit.2.pm = s.pm := rfl
@[simp] theorem State.drawBit_resv : s.drawBit.2.resv = s.resv := rfl
@[simp] theorem State.drawBit_resvAddr : s.drawBit.2.resvAddr = s.resvAddr := rfl
@[simp] theorem State.drawBit_itlb : s.drawBit.2.itlb = s.itlb := rfl
@[simp] theorem State.drawBit_dtlb : s.drawBit.2.dtlb = s.dtlb := rfl
@[simp] theorem State.drawBit_icache : s.drawBit.2.icache = s.icache := rfl
@[simp] theorem State.drawBit_dcache : s.drawBit.2.dcache = s.dcache := rfl
@[simp] theorem State.drawBit_latches : s.drawBit.2.latches = s.latches := rfl
@[simp] theorem State.drawBit_pins : s.drawBit.2.pins = s.pins := rfl
@[simp] theorem State.drawBit_mem : s.drawBit.2.mem = s.mem := rfl
@[simp] theorem State.drawBit_map : s.drawBit.2.map = s.map := rfl
@[simp] theorem State.drawBit_inputs : s.drawBit.2.inputs = s.inputs := rfl
@[simp] theorem State.drawBit_busLog : s.drawBit.2.busLog = s.busLog := rfl
@[simp] theorem State.drawBit_fresh : s.drawBit.2.fresh = s.fresh + 1 := rfl
@[simp] theorem State.drawBit_took : s.drawBit.2.took = s.took := rfl
@[simp] theorem State.drawBit_lastIa : s.drawBit.2.lastIa = s.lastIa := rfl
@[simp] theorem State.drawBit_tea : s.drawBit.2.tea = s.tea := rfl
@[simp] theorem State.drawBit_fprSingle : s.drawBit.2.fprSingle = s.fprSingle := rfl
@[simp] theorem State.drawBit_moved : s.drawBit.2.moved = s.moved := rfl

/-! ### drawBlock -/

@[simp] theorem State.drawBlock_gpr : s.drawBlock.2.gpr = s.gpr := rfl
@[simp] theorem State.drawBlock_fpr : s.drawBlock.2.fpr = s.fpr := rfl
@[simp] theorem State.drawBlock_cr : s.drawBlock.2.cr = s.cr := rfl
@[simp] theorem State.drawBlock_fpscr : s.drawBlock.2.fpscr = s.fpscr := rfl
@[simp] theorem State.drawBlock_xer : s.drawBlock.2.xer = s.xer := rfl
@[simp] theorem State.drawBlock_lr : s.drawBlock.2.lr = s.lr := rfl
@[simp] theorem State.drawBlock_ctr : s.drawBlock.2.ctr = s.ctr := rfl
@[simp] theorem State.drawBlock_pc : s.drawBlock.2.pc = s.pc := rfl
@[simp] theorem State.drawBlock_msr : s.drawBlock.2.msr = s.msr := rfl
@[simp] theorem State.drawBlock_tb : s.drawBlock.2.tb = s.tb := rfl
@[simp] theorem State.drawBlock_dec : s.drawBlock.2.dec = s.dec := rfl
@[simp] theorem State.drawBlock_exc : s.drawBlock.2.exc = s.exc := rfl
@[simp] theorem State.drawBlock_mmu : s.drawBlock.2.mmu = s.mmu := rfl
@[simp] theorem State.drawBlock_cfg : s.drawBlock.2.cfg = s.cfg := rfl
@[simp] theorem State.drawBlock_pm : s.drawBlock.2.pm = s.pm := rfl
@[simp] theorem State.drawBlock_resv : s.drawBlock.2.resv = s.resv := rfl
@[simp] theorem State.drawBlock_resvAddr : s.drawBlock.2.resvAddr = s.resvAddr := rfl
@[simp] theorem State.drawBlock_itlb : s.drawBlock.2.itlb = s.itlb := rfl
@[simp] theorem State.drawBlock_dtlb : s.drawBlock.2.dtlb = s.dtlb := rfl
@[simp] theorem State.drawBlock_icache : s.drawBlock.2.icache = s.icache := rfl
@[simp] theorem State.drawBlock_dcache : s.drawBlock.2.dcache = s.dcache := rfl
@[simp] theorem State.drawBlock_latches : s.drawBlock.2.latches = s.latches := rfl
@[simp] theorem State.drawBlock_pins : s.drawBlock.2.pins = s.pins := rfl
@[simp] theorem State.drawBlock_mem : s.drawBlock.2.mem = s.mem := rfl
@[simp] theorem State.drawBlock_map : s.drawBlock.2.map = s.map := rfl
@[simp] theorem State.drawBlock_inputs : s.drawBlock.2.inputs = s.inputs := rfl
@[simp] theorem State.drawBlock_busLog : s.drawBlock.2.busLog = s.busLog := rfl
@[simp] theorem State.drawBlock_fresh : s.drawBlock.2.fresh = s.fresh + 1 := rfl
@[simp] theorem State.drawBlock_took : s.drawBlock.2.took = s.took := rfl
@[simp] theorem State.drawBlock_lastIa : s.drawBlock.2.lastIa = s.lastIa := rfl
@[simp] theorem State.drawBlock_tea : s.drawBlock.2.tea = s.tea := rfl
@[simp] theorem State.drawBlock_fprSingle : s.drawBlock.2.fprSingle = s.fprSingle := rfl
@[simp] theorem State.drawBlock_moved : s.drawBlock.2.moved = s.moved := rfl

/-! ### putD -/

@[simp] theorem State.putD_gpr (l : DLine) : (s.putD l).gpr = s.gpr := rfl
@[simp] theorem State.putD_fpr (l : DLine) : (s.putD l).fpr = s.fpr := rfl
@[simp] theorem State.putD_cr (l : DLine) : (s.putD l).cr = s.cr := rfl
@[simp] theorem State.putD_fpscr (l : DLine) : (s.putD l).fpscr = s.fpscr := rfl
@[simp] theorem State.putD_xer (l : DLine) : (s.putD l).xer = s.xer := rfl
@[simp] theorem State.putD_lr (l : DLine) : (s.putD l).lr = s.lr := rfl
@[simp] theorem State.putD_ctr (l : DLine) : (s.putD l).ctr = s.ctr := rfl
@[simp] theorem State.putD_pc (l : DLine) : (s.putD l).pc = s.pc := rfl
@[simp] theorem State.putD_msr (l : DLine) : (s.putD l).msr = s.msr := rfl
@[simp] theorem State.putD_tb (l : DLine) : (s.putD l).tb = s.tb := rfl
@[simp] theorem State.putD_dec (l : DLine) : (s.putD l).dec = s.dec := rfl
@[simp] theorem State.putD_exc (l : DLine) : (s.putD l).exc = s.exc := rfl
@[simp] theorem State.putD_mmu (l : DLine) : (s.putD l).mmu = s.mmu := rfl
@[simp] theorem State.putD_cfg (l : DLine) : (s.putD l).cfg = s.cfg := rfl
@[simp] theorem State.putD_pm (l : DLine) : (s.putD l).pm = s.pm := rfl
@[simp] theorem State.putD_resv (l : DLine) : (s.putD l).resv = s.resv := rfl
@[simp] theorem State.putD_resvAddr (l : DLine) : (s.putD l).resvAddr = s.resvAddr := rfl
@[simp] theorem State.putD_itlb (l : DLine) : (s.putD l).itlb = s.itlb := rfl
@[simp] theorem State.putD_dtlb (l : DLine) : (s.putD l).dtlb = s.dtlb := rfl
@[simp] theorem State.putD_icache (l : DLine) : (s.putD l).icache = s.icache := rfl
@[simp] theorem State.putD_dcache (l : DLine) : (s.putD l).dcache = l :: dropD s.dcache l.block := rfl
@[simp] theorem State.putD_latches (l : DLine) : (s.putD l).latches = s.latches := rfl
@[simp] theorem State.putD_pins (l : DLine) : (s.putD l).pins = s.pins := rfl
@[simp] theorem State.putD_mem (l : DLine) : (s.putD l).mem = s.mem := rfl
@[simp] theorem State.putD_map (l : DLine) : (s.putD l).map = s.map := rfl
@[simp] theorem State.putD_inputs (l : DLine) : (s.putD l).inputs = s.inputs := rfl
@[simp] theorem State.putD_busLog (l : DLine) : (s.putD l).busLog = s.busLog := rfl
@[simp] theorem State.putD_fresh (l : DLine) : (s.putD l).fresh = s.fresh := rfl
@[simp] theorem State.putD_took (l : DLine) : (s.putD l).took = s.took := rfl
@[simp] theorem State.putD_lastIa (l : DLine) : (s.putD l).lastIa = s.lastIa := rfl
@[simp] theorem State.putD_tea (l : DLine) : (s.putD l).tea = s.tea := rfl
@[simp] theorem State.putD_fprSingle (l : DLine) : (s.putD l).fprSingle = s.fprSingle := rfl
@[simp] theorem State.putD_moved (l : DLine) : (s.putD l).moved = s.moved := rfl

/-! ### invalidateTlb -/

@[simp] theorem State.invalidateTlb_gpr (i : BitVec 6) : (s.invalidateTlb i).gpr = s.gpr := rfl
@[simp] theorem State.invalidateTlb_fpr (i : BitVec 6) : (s.invalidateTlb i).fpr = s.fpr := rfl
@[simp] theorem State.invalidateTlb_cr (i : BitVec 6) : (s.invalidateTlb i).cr = s.cr := rfl
@[simp] theorem State.invalidateTlb_fpscr (i : BitVec 6) : (s.invalidateTlb i).fpscr = s.fpscr := rfl
@[simp] theorem State.invalidateTlb_xer (i : BitVec 6) : (s.invalidateTlb i).xer = s.xer := rfl
@[simp] theorem State.invalidateTlb_lr (i : BitVec 6) : (s.invalidateTlb i).lr = s.lr := rfl
@[simp] theorem State.invalidateTlb_ctr (i : BitVec 6) : (s.invalidateTlb i).ctr = s.ctr := rfl
@[simp] theorem State.invalidateTlb_pc (i : BitVec 6) : (s.invalidateTlb i).pc = s.pc := rfl
@[simp] theorem State.invalidateTlb_msr (i : BitVec 6) : (s.invalidateTlb i).msr = s.msr := rfl
@[simp] theorem State.invalidateTlb_tb (i : BitVec 6) : (s.invalidateTlb i).tb = s.tb := rfl
@[simp] theorem State.invalidateTlb_dec (i : BitVec 6) : (s.invalidateTlb i).dec = s.dec := rfl
@[simp] theorem State.invalidateTlb_exc (i : BitVec 6) : (s.invalidateTlb i).exc = s.exc := rfl
@[simp] theorem State.invalidateTlb_mmu (i : BitVec 6) : (s.invalidateTlb i).mmu = s.mmu := rfl
@[simp] theorem State.invalidateTlb_cfg (i : BitVec 6) : (s.invalidateTlb i).cfg = s.cfg := rfl
@[simp] theorem State.invalidateTlb_pm (i : BitVec 6) : (s.invalidateTlb i).pm = s.pm := rfl
@[simp] theorem State.invalidateTlb_resv (i : BitVec 6) : (s.invalidateTlb i).resv = s.resv := rfl
@[simp] theorem State.invalidateTlb_resvAddr (i : BitVec 6) : (s.invalidateTlb i).resvAddr = s.resvAddr := rfl
@[simp] theorem State.invalidateTlb_itlb (i : BitVec 6) : (s.invalidateTlb i).itlb = s.itlb.filter (fun e => e.index != i) := rfl
@[simp] theorem State.invalidateTlb_dtlb (i : BitVec 6) : (s.invalidateTlb i).dtlb = s.dtlb.filter (fun e => e.index != i) := rfl
@[simp] theorem State.invalidateTlb_icache (i : BitVec 6) : (s.invalidateTlb i).icache = s.icache := rfl
@[simp] theorem State.invalidateTlb_dcache (i : BitVec 6) : (s.invalidateTlb i).dcache = s.dcache := rfl
@[simp] theorem State.invalidateTlb_latches (i : BitVec 6) : (s.invalidateTlb i).latches = s.latches := rfl
@[simp] theorem State.invalidateTlb_pins (i : BitVec 6) : (s.invalidateTlb i).pins = s.pins := rfl
@[simp] theorem State.invalidateTlb_mem (i : BitVec 6) : (s.invalidateTlb i).mem = s.mem := rfl
@[simp] theorem State.invalidateTlb_map (i : BitVec 6) : (s.invalidateTlb i).map = s.map := rfl
@[simp] theorem State.invalidateTlb_inputs (i : BitVec 6) : (s.invalidateTlb i).inputs = s.inputs := rfl
@[simp] theorem State.invalidateTlb_busLog (i : BitVec 6) : (s.invalidateTlb i).busLog = s.busLog := rfl
@[simp] theorem State.invalidateTlb_fresh (i : BitVec 6) : (s.invalidateTlb i).fresh = s.fresh := rfl
@[simp] theorem State.invalidateTlb_took (i : BitVec 6) : (s.invalidateTlb i).took = s.took := rfl
@[simp] theorem State.invalidateTlb_lastIa (i : BitVec 6) : (s.invalidateTlb i).lastIa = s.lastIa := rfl
@[simp] theorem State.invalidateTlb_tea (i : BitVec 6) : (s.invalidateTlb i).tea = s.tea := rfl
@[simp] theorem State.invalidateTlb_fprSingle (i : BitVec 6) : (s.invalidateTlb i).fprSingle = s.fprSingle := rfl
@[simp] theorem State.invalidateTlb_moved (i : BitVec 6) : (s.invalidateTlb i).moved = s.moved := rfl

/-! ### writeSr -/

@[simp] theorem State.writeSr_gpr (n : BitVec 4) (v : Word) : (s.writeSr n v).gpr = s.gpr := rfl
@[simp] theorem State.writeSr_fpr (n : BitVec 4) (v : Word) : (s.writeSr n v).fpr = s.fpr := rfl
@[simp] theorem State.writeSr_cr (n : BitVec 4) (v : Word) : (s.writeSr n v).cr = s.cr := rfl
@[simp] theorem State.writeSr_fpscr (n : BitVec 4) (v : Word) : (s.writeSr n v).fpscr = s.fpscr := rfl
@[simp] theorem State.writeSr_xer (n : BitVec 4) (v : Word) : (s.writeSr n v).xer = s.xer := rfl
@[simp] theorem State.writeSr_lr (n : BitVec 4) (v : Word) : (s.writeSr n v).lr = s.lr := rfl
@[simp] theorem State.writeSr_ctr (n : BitVec 4) (v : Word) : (s.writeSr n v).ctr = s.ctr := rfl
@[simp] theorem State.writeSr_pc (n : BitVec 4) (v : Word) : (s.writeSr n v).pc = s.pc := rfl
@[simp] theorem State.writeSr_msr (n : BitVec 4) (v : Word) : (s.writeSr n v).msr = s.msr := rfl
@[simp] theorem State.writeSr_tb (n : BitVec 4) (v : Word) : (s.writeSr n v).tb = s.tb := rfl
@[simp] theorem State.writeSr_dec (n : BitVec 4) (v : Word) : (s.writeSr n v).dec = s.dec := rfl
@[simp] theorem State.writeSr_exc (n : BitVec 4) (v : Word) : (s.writeSr n v).exc = s.exc := rfl
@[simp] theorem State.writeSr_cfg (n : BitVec 4) (v : Word) : (s.writeSr n v).cfg = s.cfg := rfl
@[simp] theorem State.writeSr_pm (n : BitVec 4) (v : Word) : (s.writeSr n v).pm = s.pm := rfl
@[simp] theorem State.writeSr_resv (n : BitVec 4) (v : Word) : (s.writeSr n v).resv = s.resv := rfl
@[simp] theorem State.writeSr_resvAddr (n : BitVec 4) (v : Word) : (s.writeSr n v).resvAddr = s.resvAddr := rfl
@[simp] theorem State.writeSr_itlb (n : BitVec 4) (v : Word) : (s.writeSr n v).itlb = s.itlb := rfl
@[simp] theorem State.writeSr_dtlb (n : BitVec 4) (v : Word) : (s.writeSr n v).dtlb = s.dtlb := rfl
@[simp] theorem State.writeSr_icache (n : BitVec 4) (v : Word) : (s.writeSr n v).icache = s.icache := rfl
@[simp] theorem State.writeSr_dcache (n : BitVec 4) (v : Word) : (s.writeSr n v).dcache = s.dcache := rfl
@[simp] theorem State.writeSr_latches (n : BitVec 4) (v : Word) : (s.writeSr n v).latches = s.latches := rfl
@[simp] theorem State.writeSr_pins (n : BitVec 4) (v : Word) : (s.writeSr n v).pins = s.pins := rfl
@[simp] theorem State.writeSr_mem (n : BitVec 4) (v : Word) : (s.writeSr n v).mem = s.mem := rfl
@[simp] theorem State.writeSr_map (n : BitVec 4) (v : Word) : (s.writeSr n v).map = s.map := rfl
@[simp] theorem State.writeSr_inputs (n : BitVec 4) (v : Word) : (s.writeSr n v).inputs = s.inputs := rfl
@[simp] theorem State.writeSr_busLog (n : BitVec 4) (v : Word) : (s.writeSr n v).busLog = s.busLog := rfl
@[simp] theorem State.writeSr_fresh (n : BitVec 4) (v : Word) : (s.writeSr n v).fresh = s.fresh := rfl
@[simp] theorem State.writeSr_took (n : BitVec 4) (v : Word) : (s.writeSr n v).took = s.took := rfl
@[simp] theorem State.writeSr_lastIa (n : BitVec 4) (v : Word) : (s.writeSr n v).lastIa = s.lastIa := rfl
@[simp] theorem State.writeSr_tea (n : BitVec 4) (v : Word) : (s.writeSr n v).tea = s.tea := rfl
@[simp] theorem State.writeSr_fprSingle (n : BitVec 4) (v : Word) : (s.writeSr n v).fprSingle = s.fprSingle := rfl
@[simp] theorem State.writeSr_moved (n : BitVec 4) (v : Word) : (s.writeSr n v).moved = s.moved := rfl

/-! ### enter -/

@[simp] theorem State.enter_gpr (o a i k c : Word) : (s.enter o a i k c).gpr = s.gpr := rfl
@[simp] theorem State.enter_fpr (o a i k c : Word) : (s.enter o a i k c).fpr = s.fpr := rfl
@[simp] theorem State.enter_cr (o a i k c : Word) : (s.enter o a i k c).cr = s.cr := rfl
@[simp] theorem State.enter_fpscr (o a i k c : Word) : (s.enter o a i k c).fpscr = s.fpscr := rfl
@[simp] theorem State.enter_xer (o a i k c : Word) : (s.enter o a i k c).xer = s.xer := rfl
@[simp] theorem State.enter_lr (o a i k c : Word) : (s.enter o a i k c).lr = s.lr := rfl
@[simp] theorem State.enter_ctr (o a i k c : Word) : (s.enter o a i k c).ctr = s.ctr := rfl
@[simp] theorem State.enter_pc (o a i k c : Word) : (s.enter o a i k c).pc = s.vector o := rfl
@[simp] theorem State.enter_msr (o a i k c : Word) : (s.enter o a i k c).msr = (s.msr &&& k) ||| wordOfBool (beBit s.msr 15) := rfl
@[simp] theorem State.enter_tb (o a i k c : Word) : (s.enter o a i k c).tb = s.tb := rfl
@[simp] theorem State.enter_dec (o a i k c : Word) : (s.enter o a i k c).dec = s.dec := rfl
@[simp] theorem State.enter_exc (o a i k c : Word) : (s.enter o a i k c).exc = { s.exc with srr0 := alignWord a, srr1 := (s.msr &&& c) ||| i } := rfl
@[simp] theorem State.enter_mmu (o a i k c : Word) : (s.enter o a i k c).mmu = s.mmu := rfl
@[simp] theorem State.enter_cfg (o a i k c : Word) : (s.enter o a i k c).cfg = s.cfg := rfl
@[simp] theorem State.enter_pm (o a i k c : Word) : (s.enter o a i k c).pm = s.pm := rfl
@[simp] theorem State.enter_resv (o a i k c : Word) : (s.enter o a i k c).resv = s.resv := rfl
@[simp] theorem State.enter_resvAddr (o a i k c : Word) : (s.enter o a i k c).resvAddr = s.resvAddr := rfl
@[simp] theorem State.enter_itlb (o a i k c : Word) : (s.enter o a i k c).itlb = s.itlb := rfl
@[simp] theorem State.enter_dtlb (o a i k c : Word) : (s.enter o a i k c).dtlb = s.dtlb := rfl
@[simp] theorem State.enter_icache (o a i k c : Word) : (s.enter o a i k c).icache = s.icache := rfl
@[simp] theorem State.enter_dcache (o a i k c : Word) : (s.enter o a i k c).dcache = s.dcache := rfl
@[simp] theorem State.enter_latches (o a i k c : Word) : (s.enter o a i k c).latches = { s.latches with halted := false } := rfl
@[simp] theorem State.enter_pins (o a i k c : Word) : (s.enter o a i k c).pins = s.pins := rfl
@[simp] theorem State.enter_mem (o a i k c : Word) : (s.enter o a i k c).mem = s.mem := rfl
@[simp] theorem State.enter_map (o a i k c : Word) : (s.enter o a i k c).map = s.map := rfl
@[simp] theorem State.enter_inputs (o a i k c : Word) : (s.enter o a i k c).inputs = s.inputs := rfl
@[simp] theorem State.enter_busLog (o a i k c : Word) : (s.enter o a i k c).busLog = s.busLog := rfl
@[simp] theorem State.enter_fresh (o a i k c : Word) : (s.enter o a i k c).fresh = s.fresh := rfl
@[simp] theorem State.enter_took (o a i k c : Word) : (s.enter o a i k c).took = true := rfl
@[simp] theorem State.enter_lastIa (o a i k c : Word) : (s.enter o a i k c).lastIa = s.lastIa := rfl
@[simp] theorem State.enter_tea (o a i k c : Word) : (s.enter o a i k c).tea = s.tea := rfl
@[simp] theorem State.enter_fprSingle (o a i k c : Word) : (s.enter o a i k c).fprSingle = s.fprSingle := rfl
@[simp] theorem State.enter_moved (o a i k c : Word) : (s.enter o a i k c).moved = false := rfl

/-! ### Reading what was written -/

@[simp] theorem State.readGpr_writeGpr_same (r : Reg) (v : Word) : (s.writeGpr r v).readGpr r = v := by
  simp [State.readGpr, State.writeGpr]

theorem State.readGpr_writeGpr_other (r q : Reg) (v : Word) (h : q ≠ r) :
    (s.writeGpr r v).readGpr q = s.readGpr q := by
  have : r.toNat ≠ q.toNat := fun e => h (BitVec.eq_of_toNat_eq e.symm)
  simp [State.readGpr, State.writeGpr, this]

@[simp] theorem State.readFpr_writeFpr_same (r : Reg) (v : Dword) : (s.writeFpr r v).readFpr r = v := by
  simp [State.readFpr, State.writeFpr, State.putFpr]

@[simp] theorem State.readFpr_putFpr_same (b : Bool) (r : Reg) (v : Dword) : (s.putFpr b r v).readFpr r = v := by
  simp [State.readFpr, State.putFpr]

theorem State.readFpr_putFpr_other (b : Bool) (r q : Reg) (v : Dword) (h : q ≠ r) :
    (s.putFpr b r v).readFpr q = s.readFpr q := by
  have : r.toNat ≠ q.toNat := fun e => h (BitVec.eq_of_toNat_eq e.symm)
  simp [State.readFpr, State.putFpr, this]

@[simp] theorem State.fprIsSingle_putFpr_same (b : Bool) (r : Reg) (v : Dword) : (s.putFpr b r v).fprIsSingle r = b := by
  simp [State.fprIsSingle, State.putFpr]

theorem State.fprIsSingle_putFpr_other (b : Bool) (r q : Reg) (v : Dword) (h : q ≠ r) :
    (s.putFpr b r v).fprIsSingle q = s.fprIsSingle q := by
  have : r.toNat ≠ q.toNat := fun e => h (BitVec.eq_of_toNat_eq e.symm)
  simp [State.fprIsSingle, State.putFpr, this]

theorem State.readFpr_writeFpr_other (r q : Reg) (v : Dword) (h : q ≠ r) :
    (s.writeFpr r v).readFpr q = s.readFpr q := by
  have : r.toNat ≠ q.toNat := fun e => h (BitVec.eq_of_toNat_eq e.symm)
  simp [State.readFpr, State.writeFpr, State.putFpr, this]

@[simp] theorem State.readSr_writeSr_same (n : BitVec 4) (v : Word) :
    (s.writeSr n v).readSr n = if beBit v 0 then v else v &&& 0xF0FFFFFF := by
  simp [State.readSr, State.writeSr]

theorem State.readSr_writeSr_other (n k : BitVec 4) (v : Word) (h : k ≠ n) :
    (s.writeSr n v).readSr k = s.readSr k := by
  have : n.toNat ≠ k.toNat := fun e => h (BitVec.eq_of_toNat_eq e.symm)
  simp [State.readSr, State.writeSr, this]

@[simp] theorem State.readGpr_advance (r : Reg) : s.advance.readGpr r = s.readGpr r := rfl
@[simp] theorem State.readGpr_setCrField (n : Nat) (v : BitVec 4) (r : Reg) :
    (s.setCrField n v).readGpr r = s.readGpr r := rfl
@[simp] theorem State.readGpr_setCa (b : Bool) (r : Reg) : (s.setCa b).readGpr r = s.readGpr r := rfl
@[simp] theorem State.readGpr_setOv (b : Bool) (r : Reg) : (s.setOv b).readGpr r = s.readGpr r := rfl
@[simp] theorem State.readFpr_advance (r : Reg) : s.advance.readFpr r = s.readFpr r := rfl
@[simp] theorem State.readFpr_setCrField (n : Nat) (v : BitVec 4) (r : Reg) :
    (s.setCrField n v).readFpr r = s.readFpr r := rfl

/-! ### takeDirectError -/

@[simp] theorem State.takeDirectError_lastIa (c d : Word) : (s.takeDirectError c d).lastIa = s.pc := by
  simp only [State.takeDirectError, State.takeDsi, State.takeException, State.enter]
@[simp] theorem State.takeDirectError_gpr (c d : Word) : (s.takeDirectError c d).gpr = s.gpr := by
  simp only [State.takeDirectError, State.takeDsi, State.takeException, State.enter]
@[simp] theorem State.takeDirectError_mem (c d : Word) : (s.takeDirectError c d).mem = s.mem := by
  simp only [State.takeDirectError, State.takeDsi, State.takeException, State.enter]
@[simp] theorem State.takeDirectError_took (c d : Word) : (s.takeDirectError c d).took = true := by
  simp only [State.takeDirectError, State.takeDsi, State.takeException, State.enter]

end Sys2Proof.Machine
end

