-- ==== Sys2Proof/Laws/Memory.lean ====
section
/-! SUPPORT. Laws/Memory.lean: physical memory keeps its canonical form, and a read after a write. -/

namespace Sys2Proof.Machine

theorem Memory.wfAbove_mono {j k : Nat} {m : List Host.Cell} (h : Memory.wfAbove k m = true) (hj : j ≤ k) :
    Memory.wfAbove j m = true := by
  cases m with
  | nil => rfl
  | cons c t =>
    obtain ⟨a, b⟩ := c
    simp only [Memory.wfAbove, Bool.and_eq_true, decide_eq_true_eq] at h ⊢
    exact ⟨⟨⟨Nat.le_trans hj h.1.1.1, h.1.1.2⟩, h.1.2⟩, h.2⟩

/-- A write inside the address space keeps the canonical form. -/
theorem Memory.wfAbove_write (m : List Host.Cell) : ∀ (j k : Nat) (v : Byte), Memory.wfAbove j m = true → j ≤ k →
    k < 4294967296 → Memory.wfAbove j (Memory.write m k v) = true := by
  induction m with
  | nil =>
    intro j k v _ hk hlt
    simp only [Memory.write]
    split
    · rfl
    · simp [Memory.wfAbove, *]
  | cons c t ih =>
    obtain ⟨a, b⟩ := c
    intro j k v h hk hlt
    simp only [Memory.wfAbove, Bool.and_eq_true, decide_eq_true_eq] at h
    obtain ⟨⟨⟨h1, h2⟩, h3⟩, h4⟩ := h
    simp only [Memory.write]
    split
    · split
      · simp [Memory.wfAbove, h1, h2, h3, h4]
      · simp [Memory.wfAbove, *]
    · split
      · split
        · exact Memory.wfAbove_mono h4 (by omega)
        · simp [Memory.wfAbove, *]
      · simp only [Memory.wfAbove, Bool.and_eq_true, decide_eq_true_eq]
        exact ⟨⟨⟨h1, h2⟩, h3⟩, ih _ _ _ h4 (by omega) hlt⟩

theorem Memory.wf_write {m : List Host.Cell} {k : Nat} {v : Byte} (h : Memory.wf m = true) (hk : k < 4294967296) :
    Memory.wf (Memory.write m k v) = true := Memory.wfAbove_write m 0 k v h (Nat.zero_le k) hk

theorem Memory.wf_writeBytes (l : List Byte) : ∀ (m : List Host.Cell) (a : Word), Memory.wf m = true →
    Memory.wf (Memory.writeBytes m a l) = true := by
  induction l with
  | nil => intro m a h; exact h
  | cons b t ih => intro m a h; exact ih _ _ (Memory.wf_write h a.isLt)

theorem wf_patchMemory (ws : List (Word × Byte)) : ∀ (m : List Host.Cell), Memory.wf m = true →
    Memory.wf (patchMemory m ws) = true := by
  induction ws with
  | nil => intro m h; exact h
  | cons p t ih => intro m h; exact ih _ (Memory.wf_write h p.1.isLt)

/-- The memory of the reset state has the canonical form. -/
theorem State.reset_mem_wf : Memory.wf State.reset.mem = true := rfl

/-- Below every listed address a byte reads as the unlisted byte. -/
theorem Memory.read_below {j : Nat} {m : List Host.Cell} (h : Memory.wfAbove j m = true) {k : Nat} (hk : k < j) :
    Memory.read m k = Memory.unlisted := by
  cases m with
  | nil => rfl
  | cons c t =>
    obtain ⟨a, b⟩ := c
    simp only [Memory.wfAbove, Bool.and_eq_true, decide_eq_true_eq] at h
    simp only [Memory.read]
    rw [if_pos (by omega)]

/-- Reading after a write: the written byte at its address, every other byte as before. -/
theorem Memory.read_write (m : List Host.Cell) : ∀ (j k : Nat) (v : Byte) (q : Nat), Memory.wfAbove j m = true →
    Memory.read (Memory.write m k v) q = if q = k then v else Memory.read m q := by
  induction m with
  | nil =>
    intro j k v q _
    by_cases hv : v = Memory.unlisted <;> by_cases hq : q = k <;> simp [Memory.write, Memory.read, hv, hq]
  | cons c t ih =>
    obtain ⟨a, b⟩ := c
    intro j k v q h
    simp only [Memory.wfAbove, Bool.and_eq_true, decide_eq_true_eq] at h
    obtain ⟨⟨⟨_, _⟩, _⟩, h4⟩ := h
    have below : ∀ x, x ≤ a → Memory.read t x = Memory.unlisted := fun x hx => Memory.read_below h4 (by omega)
    simp only [Memory.write]
    by_cases h1 : k < a
    · rw [if_pos h1]
      by_cases hv : v = Memory.unlisted
      · rw [if_pos hv]
        by_cases hq : q = k
        · simp [hq, Memory.read, h1, hv]
        · simp [hq]
      · rw [if_neg hv]
        by_cases hq : q = k
        · simp [hq, Memory.read]
        · by_cases hlt : q < k
          · have : q < a := by omega
            simp [hq, Memory.read, hlt, this]
          · simp [hq, Memory.read, hlt]
    · rw [if_neg h1]
      by_cases h2 : k = a
      · rw [if_pos h2]
        subst h2
        by_cases hv : v = Memory.unlisted
        · rw [if_pos hv]
          by_cases hq : q = k
          · simp [hq, hv, below k (Nat.le_refl k)]
          · by_cases hlt : q < k
            · simp [hq, Memory.read, hlt, below q (by omega)]
            · simp [hq, Memory.read, hlt]
        · rw [if_neg hv]
          by_cases hq : q = k
          · simp [hq, Memory.read]
          · simp [hq, Memory.read]
      · rw [if_neg h2]
        simp only [Memory.read]
        by_cases h3 : q < a
        · have : q ≠ k := by omega
          simp [h3, this]
        · by_cases h5 : q = a
          · have : q ≠ k := by omega
            simp [h5, Ne.symm h2]
          · simp only [if_neg h3, if_neg h5]
            exact ih _ _ _ _ h4

theorem Memory.read_write_wf {m : List Host.Cell} (h : Memory.wf m = true) (k : Nat) (v : Byte) (q : Nat) :
    Memory.read (Memory.write m k v) q = if q = k then v else Memory.read m q := Memory.read_write m 0 k v q h

/-- Writing bytes to some physical addresses leaves every other byte of memory. -/
theorem read_patchMemory_other (ws : List (Word × Byte)) : ∀ (m : List Host.Cell), Memory.wf m = true →
    ∀ q : Nat, (∀ p ∈ ws, q ≠ p.1.toNat) → Memory.read (patchMemory m ws) q = Memory.read m q := by
  induction ws with
  | nil => intro m _ q _; rfl
  | cons p t ih =>
    intro m h q hq
    rw [patchMemory, ih _ (Memory.wf_write h p.1.isLt) q fun x hx => hq x (List.mem_cons_of_mem _ hx),
      Memory.read_write_wf h, if_neg (hq p List.mem_cons_self)]

/-- With distinct addresses each byte written is the byte read. -/
theorem read_patchMemory_mem (ws : List (Word × Byte)) : ∀ (m : List Host.Cell), Memory.wf m = true →
    (ws.map Prod.fst).Nodup → ∀ p ∈ ws, Memory.read (patchMemory m ws) p.1.toNat = p.2 := by
  induction ws with
  | nil => intro m _ _ p hp; cases hp
  | cons w t ih =>
    intro m h hn p hp
    simp only [List.map_cons, List.nodup_cons] at hn
    rcases List.mem_cons.1 hp with rfl | hp
    · rw [patchMemory, read_patchMemory_other t _ (Memory.wf_write h p.1.isLt), Memory.read_write_wf h, if_pos rfl]
      intro x hx e
      exact hn.1 (List.mem_map.2 ⟨x, hx, BitVec.eq_of_toNat_eq e.symm⟩)
    · exact ih _ (Memory.wf_write h w.1.isLt) hn.2 p hp

end Sys2Proof.Machine
end

