-- ==== Sys2Proof/Laws/Cache.lean ====
section
/-! SUPPORT. Laws/Cache.lean: what the data cache's operations do to the bytes a data access sees. -/

namespace Sys2Proof.Machine

/-! ### Addresses and blocks -/

theorem addr_eq_block_offset (pa : Word) : pa.toNat = (blockOf pa).toNat * 32 + blockOffset pa := by
  simp only [blockOf, blockOffset, BitVec.extractLsb'_toNat, Nat.shiftRight_eq_div_pow]
  have := pa.isLt
  omega

theorem blockOffset_lt (pa : Word) : blockOffset pa < 32 := (pa.extractLsb' 0 5).isLt

theorem blockAddr_toNat (b : BitVec 27) : (blockAddr b).toNat = b.toNat * 32 := by
  rw [blockAddr, BitVec.toNat_append]
  simp [Nat.shiftLeft_eq]

theorem eq_of_block_offset {a b : Word} (h1 : blockOf a = blockOf b) (h2 : blockOffset a = blockOffset b) : a = b := by
  apply BitVec.eq_of_toNat_eq
  rw [addr_eq_block_offset a, addr_eq_block_offset b, h1, h2]

/-- The bytes of a block's cells lie in that block only. -/
theorem cell_block {q : Nat} {b : BitVec 27} {a : Word} {i : Nat} (hi : i < 32) (h : a.toNat = q)
    (hq : q = b.toNat * 32 + i) : blockOf a = b ∧ blockOffset a = i := by
  have h1 := addr_eq_block_offset a
  have h2 := blockOffset_lt a
  have : (blockOf a).toNat = b.toNat := by omega
  exact ⟨BitVec.eq_of_toNat_eq this, by omega⟩

@[simp] theorem blockByte_memoryBlock (m : List Host.Cell) (b : BitVec 27) (i : Nat) (h : i < 32) :
    blockByte (memoryBlock m b) i = Memory.read m (b.toNat * 32 + i) := by
  simp [blockByte, memoryBlock, List.getD, h]

theorem Memory.read_writeBytes_other (l : List Byte) : ∀ (m : List Host.Cell) (a : Word) (q : Nat), Memory.wf m = true →
    a.toNat + l.length ≤ 4294967296 → (q < a.toNat ∨ a.toNat + l.length ≤ q) →
    Memory.read (Memory.writeBytes m a l) q = Memory.read m q := by
  induction l with
  | nil => intro m a q _ _ _; rfl
  | cons b t ih =>
    intro m a q h hl hq
    rw [List.length_cons] at hl hq
    rw [Memory.writeBytes]
    rcases Nat.eq_zero_or_pos t.length with h0 | h0
    · rw [List.eq_nil_of_length_eq_zero h0, Memory.writeBytes, Memory.read_write_wf h, if_neg (by omega)]
    · have ha : (a + 1).toNat = a.toNat + 1 := by rw [BitVec.toNat_add]; simp; omega
      rw [ih _ _ _ (Memory.wf_write h a.isLt) (by omega) (by omega), Memory.read_write_wf h, if_neg (by omega)]

theorem Memory.read_writeBytes_mem (l : List Byte) : ∀ (m : List Host.Cell) (a : Word) (i : Nat), Memory.wf m = true →
    a.toNat + l.length ≤ 4294967296 → i < l.length →
    Memory.read (Memory.writeBytes m a l) (a.toNat + i) = l.getD i 0 := by
  induction l with
  | nil => intro m a i _ _ hi; cases hi
  | cons b t ih =>
    intro m a i h hl hi
    rw [List.length_cons] at hl hi
    rw [Memory.writeBytes]
    rcases Nat.eq_zero_or_pos t.length with h0 | h0
    · have : i = 0 := by omega
      rw [List.eq_nil_of_length_eq_zero h0, Memory.writeBytes, Memory.read_write_wf h]
      simp [this]
    · have ha : (a + 1).toNat = a.toNat + 1 := by rw [BitVec.toNat_add]; simp; omega
      cases i with
      | zero =>
        rw [Memory.read_writeBytes_other t _ _ _ (Memory.wf_write h a.isLt) (by omega) (by omega),
          Memory.read_write_wf h]
        simp
      | succ i =>
        have := ih (Memory.write m a.toNat b) (a + 1) i (Memory.wf_write h a.isLt) (by omega) (by omega)
        rw [ha] at this
        rw [show a.toNat + (i + 1) = a.toNat + 1 + i by omega, this]
        simp

/-! ### Finding blocks -/

theorem findD_some {c : List DLine} {b : BitVec 27} {l : DLine} (h : findD c b = some l) : l ∈ c ∧ l.block = b := by
  refine ⟨List.mem_of_find?_eq_some h, ?_⟩
  have := List.find?_some h
  simpa using this

theorem findD_cons (l : DLine) (c : List DLine) (b : BitVec 27) :
    findD (l :: c) b = if l.block = b then some l else findD c b := by
  by_cases h : l.block = b <;> simp [findD, h]

theorem findD_dropD (c : List DLine) (v b : BitVec 27) : findD (dropD c v) b = if b = v then none else findD c b := by
  induction c with
  | nil => simp [findD, dropD]
  | cons l t ih =>
    by_cases hl : l.block = v
    · have : dropD (l :: t) v = dropD t v := by simp [dropD, hl]
      rw [this, ih, findD_cons, hl]
      by_cases hb : b = v
      · simp [hb]
      · simp [hb, Ne.symm hb]
    · have : dropD (l :: t) v = l :: dropD t v := by simp [dropD, hl]
      rw [this, findD_cons, findD_cons, ih]
      by_cases hb : b = v
      · subst hb; simp [hl]
      · simp [hb]

theorem mem_dropD {c : List DLine} {b : BitVec 27} {l : DLine} : l ∈ dropD c b ↔ l ∈ c ∧ l.block ≠ b := by
  simp [dropD]

theorem nodup_dropD {c : List DLine} (h : (c.map DLine.block).Nodup) (b : BitVec 27) :
    ((dropD c b).map DLine.block).Nodup :=
  h.sublist ((List.filter_sublist).map _)

theorem nodup_putD {c : List DLine} (h : (c.map DLine.block).Nodup) (l : DLine) :
    ((l :: dropD c l.block).map DLine.block).Nodup := by
  rw [List.map_cons, List.nodup_cons]
  refine ⟨?_, nodup_dropD h _⟩
  intro hm
  obtain ⟨x, hx, hb⟩ := List.mem_map.1 hm
  exact (mem_dropD.1 hx).2 hb

/-- In a cache of distinct blocks a block that is there is the one found. -/
theorem findD_of_mem {c : List DLine} (h : (c.map DLine.block).Nodup) {l : DLine} (hl : l ∈ c) :
    findD c l.block = some l := by
  induction c with
  | nil => cases hl
  | cons x t ih =>
    rw [List.map_cons, List.nodup_cons] at h
    rw [findD_cons]
    rcases List.mem_cons.1 hl with rfl | ht
    · rw [if_pos rfl]
    · rw [if_neg, ih h.2 ht]
      intro e
      exact h.1 (e ▸ List.mem_map_of_mem ht)

/-! ### The byte a data access sees -/

theorem State.dataByte_off {s : State} (h : s.dcacheOn = false) (a : Word) : s.dataByte a = Memory.read s.mem a.toNat := by
  simp [State.dataByte, h]

theorem State.dataByte_hit {s : State} (h : s.dcacheOn = true) {a : Word} {l : DLine}
    (hf : findD s.dcache (blockOf a) = some l) : s.dataByte a = blockByte l.data (blockOffset a) := by
  simp [State.dataByte, h, hf]

theorem State.dataByte_miss {s : State} {a : Word} (hf : findD s.dcache (blockOf a) = none) :
    s.dataByte a = Memory.read s.mem a.toNat := by
  simp [State.dataByte, hf]

/-- A block that is not modified shows what memory holds. -/
theorem State.coherent_byte {s : State} (hc : s.dcacheCoherent) {l : DLine} (hl : l ∈ s.dcache)
    (hm : l.mesi ≠ .modified) {a : Word} (ha : blockOf a = l.block) :
    blockByte l.data (blockOffset a) = Memory.read s.mem a.toNat := by
  rw [hc l hl hm _ (blockOffset_lt a), addr_eq_block_offset a, ha]

/-- Writing a block back gives memory its bytes and leaves the rest of memory. -/
theorem read_writeBack (m : List Host.Cell) (hw : Memory.wf m = true) (l : DLine) (a : Word) :
    Memory.read (Memory.writeBytes m (blockAddr l.block) l.data.toList) a.toNat =
      if blockOf a = l.block then blockByte l.data (blockOffset a) else Memory.read m a.toNat := by
  have hlen : l.data.toList.length = 32 := by simp
  have hb := l.block.isLt
  have h0 := blockAddr_toNat l.block
  have h1 := addr_eq_block_offset a
  have h2 := blockOffset_lt a
  by_cases h : blockOf a = l.block
  · rw [if_pos h, h1, h, ← h0, Memory.read_writeBytes_mem _ _ _ _ hw (by omega) (by omega)]
    rfl
  · rw [if_neg h, Memory.read_writeBytes_other _ _ _ _ hw (by omega)]
    have : (blockOf a).toNat ≠ l.block.toNat := fun e => h (BitVec.eq_of_toNat_eq e)
    omega

/-! ### Ordinary memory -/

/-- A read of RAM or ROM gives what memory holds and changes nothing. -/
theorem State.readBlock_plain {s : State} {u : Use} {b : BitVec 27} (h : s.ordinary u b) :
    s.readBlock b = (memoryBlock s.mem b, s) := by
  unfold State.readBlock
  rcases h with h | ⟨-, h⟩ <;> simp only [h]

/-- A write to RAM writes memory and nothing else. -/
theorem State.writeBlock_ram {s : State} {b : BitVec 27} (h : s.kindOf b = .ram) (m : List Host.Cell)
    (ws : List (Word × Byte)) : s.writeBlock b m ws = { s with mem := m } := by
  simp only [State.writeBlock, h]

theorem State.ordinary_store {s : State} {u : Use} {b : BitVec 27} (h : s.ordinary u b) (hu : u.isStore = true) :
    s.kindOf b = .ram := by
  rcases h with h | ⟨h, -⟩
  · exact h
  · rw [hu] at h; cases h

/-- What writing back a block of RAM does. -/
theorem State.writeBack_ram {s : State} {l : DLine} (h : s.kindOf l.block = .ram) :
    s.writeBack l = { s with
      mem := Memory.writeBytes s.mem (blockAddr l.block) l.data.toList
      busLog := .tenure .writeKill (blockAddr l.block) 0b100 false 32 :: s.busLog } := by
  rw [State.writeBack, State.writeBlock_ram h]; rfl

/-- What a write of RAM past the cache does. -/
theorem State.storeMemory_ram {s : State} {pa : Word} (h : s.kindOf (blockOf pa) = .ram) (k : BusKind) (w : BitVec 3)
    (ws : List (Word × Byte)) :
    s.storeMemory k w pa ws = { s with
      mem := patchMemory s.mem ws
      busLog := .tenure k (lowest pa (ws.map Prod.fst)) w (w.getLsbD 0) ws.length :: s.busLog } := by
  rw [State.storeMemory, State.writeBlock_ram h]; rfl

/-- Making room changes no byte a data access sees, and leaves a sound memory system. -/
theorem State.evictD_spec (s : State) (b : BitVec 27) (hon : s.dcacheOn = true) (hs : s.dataSound) :
    s.onlyMemorySystem (s.evictD b) ∧ s.sameBytes (s.evictD b) ∧ (s.evictD b).dataSound ∧
      (findD s.dcache b = none → findD (s.evictD b).dcache b = none) := by
  obtain ⟨hw, hd⟩ := hs
  obtain ⟨hdis, hcoh, hram⟩ := hd hon
  unfold State.evictD
  simp only
  split
  · exact ⟨rfl, fun _ => rfl, ⟨hw, fun _ => ⟨hdis, hcoh, hram⟩⟩, id⟩
  · split
    · exact ⟨rfl, fun _ => rfl, ⟨hw, fun _ => ⟨hdis, hcoh, hram⟩⟩, id⟩
    · rename_i v hv
      have hvm : v ∈ s.dcache := (List.mem_filter.1 (List.mem_of_getLast? hv)).1
      have hfv := findD_of_mem hdis hvm
      by_cases hm : v.mesi = .modified
      · simp only [if_pos hm]
        rw [State.writeBack_ram (hram v hvm hm)]
        refine ⟨rfl, ?_, ⟨Memory.wf_writeBytes _ _ _ hw, fun _ => ⟨nodup_dropD hdis _, ?_, ?_⟩⟩, ?_⟩
        · intro a
          by_cases ha : blockOf a = v.block
          · rw [State.dataByte_miss (by simp [findD_dropD, ha]), State.dataByte_hit hon (ha ▸ hfv)]
            simp [read_writeBack _ hw, ha]
          · cases hf : findD s.dcache (blockOf a) with
            | none =>
              rw [State.dataByte_miss (by simp [findD_dropD, ha, hf]), State.dataByte_miss hf]
              simp [read_writeBack _ hw, ha]
            | some x =>
              rw [State.dataByte_hit (l := x) (by exact hon) (by simp [findD_dropD, ha, hf]), State.dataByte_hit hon hf]
        · intro l hl hlm i hi
          simp only [mem_dropD] at hl
          have h3 : Memory.read s.mem (l.block.toNat * 32 + i) = blockByte l.data i := (hcoh l hl.1 hlm i hi).symm
          have hlt : l.block.toNat * 32 + i < 2 ^ 32 := by have := l.block.isLt; omega
          have ha : (BitVec.ofNat 32 (l.block.toNat * 32 + i)).toNat = l.block.toNat * 32 + i := by
            rw [BitVec.toNat_ofNat, Nat.mod_eq_of_lt hlt]
          obtain ⟨hb1, -⟩ := cell_block hi ha rfl
          have := read_writeBack s.mem hw v (BitVec.ofNat 32 (l.block.toNat * 32 + i))
          rw [ha, if_neg (by rw [hb1]; exact hl.2)] at this
          simp only [this, h3]
        · intro l hl hlm
          exact hram l (mem_dropD.1 hl).1 hlm
        · intro hn
          simp only [findD_dropD, hn, ite_self]
      · simp only [if_neg hm]
        refine ⟨rfl, ?_, ⟨hw, fun _ => ⟨nodup_dropD hdis _, ?_, fun l hl => hram l (mem_dropD.1 hl).1⟩⟩, ?_⟩
        · intro a
          have hon' : State.dcacheOn { s with dcache := dropD s.dcache v.block } = true := hon
          by_cases ha : blockOf a = v.block
          · rw [State.dataByte_miss (by simp [findD_dropD, ha]), State.dataByte_hit hon (ha ▸ hfv),
              State.coherent_byte hcoh hvm hm ha]
          · cases hf : findD s.dcache (blockOf a) with
            | none => rw [State.dataByte_miss (by simp [findD_dropD, ha, hf]), State.dataByte_miss hf]
            | some x => rw [State.dataByte_hit (l := x) hon' (by simp [findD_dropD, ha, hf]), State.dataByte_hit hon hf]
        · intro l hl hlm i hi
          exact hcoh l (mem_dropD.1 hl).1 hlm i hi
        · intro hn
          simp only [findD_dropD, hn, ite_self]

/-! ### Loads -/

/-- Putting a block in the cache: its bytes are seen in it, the others as before. -/
theorem State.dataByte_putD (s : State) (l : DLine) (hon : s.dcacheOn = true) (a : Word) :
    (s.putD l).dataByte a = if blockOf a = l.block then blockByte l.data (blockOffset a) else s.dataByte a := by
  have hon' : (s.putD l).dcacheOn = true := hon
  by_cases h : blockOf a = l.block
  · rw [if_pos h, State.dataByte_hit (l := l) hon' (by simp [findD_cons, h])]
  · have hf : findD (s.putD l).dcache (blockOf a) = findD s.dcache (blockOf a) := by
      simp [findD_cons, findD_dropD, h, Ne.symm h]
    rw [if_neg h]
    cases hc : findD s.dcache (blockOf a) with
    | none => rw [State.dataByte_miss (by rw [hf, hc]), State.dataByte_miss hc, State.putD_mem]
    | some x => rw [State.dataByte_hit hon' (by rw [hf, hc]), State.dataByte_hit hon hc]

/-- Putting a block that is modified, or agrees with memory, keeps the memory system sound. -/
theorem State.dataSound_putD {s : State} (l : DLine) (hs : s.dataSound)
    (hl : l.mesi ≠ .modified → ∀ i < 32, blockByte l.data i = Memory.read s.mem (l.block.toNat * 32 + i))
    (hr : l.mesi = .modified → s.kindOf l.block = .ram) : (s.putD l).dataSound := by
  obtain ⟨hw, hd⟩ := hs
  refine ⟨hw, fun hon => ?_⟩
  obtain ⟨hdis, hcoh, hram⟩ := hd hon
  refine ⟨nodup_putD hdis l, ?_, ?_⟩
  · intro x hx hm i hi
    rcases List.mem_cons.1 hx with rfl | hx
    · exact hl hm i hi
    · exact hcoh x (mem_dropD.1 hx).1 hm i hi
  · intro x hx hm
    rcases List.mem_cons.1 hx with rfl | hx
    · exact hr hm
    · exact hram x (mem_dropD.1 hx).1 hm

theorem State.dataSound_logTenure {s : State} (k : BusKind) (pa : Word) (w : BitVec 3) (n : Nat) (hs : s.dataSound) :
    (s.logTenure k pa w n).dataSound := hs

theorem State.sameBytes_logTenure (s : State) (k : BusKind) (pa : Word) (w : BitVec 3) (n : Nat) :
    s.sameBytes (s.logTenure k pa w n) := fun _ => rfl

/-- What a load of plain storage does: it changes the cache, memory and the bus log at most, every byte stays as
it was seen, and the bytes it gives are those. -/
theorem State.blockForLoad_spec (s : State) {u : Use} (wimg : BitVec 4) (k : BusKind) (pa addr : Word) (n : Nat)
    (hs : s.dataSound) (ho : s.ordinary u (blockOf pa)) (hi : s.dcacheOn = true → attrI wimg = false) :
    s.onlyMemorySystem (s.blockForLoad wimg k pa addr n).2 ∧ s.sameBytes (s.blockForLoad wimg k pa addr n).2 ∧
      (s.blockForLoad wimg k pa addr n).2.dataSound ∧ ∀ a, blockOf a = blockOf pa →
        blockByte (s.blockForLoad wimg k pa addr n).1 (blockOffset a) = s.dataByte a := by
  have hmem : ∀ (m : List Host.Cell) (a : Word), blockOf a = blockOf pa →
      blockByte (memoryBlock m (blockOf pa)) (blockOffset a) = Memory.read m a.toNat := by
    intro m a ha
    rw [blockByte_memoryBlock _ _ _ (blockOffset_lt a), addr_eq_block_offset a, ha]
  cases hon : s.dcacheOn with
  | false =>
    have hb : s.bypassD wimg = true := by simp [State.bypassD, hon]
    rw [State.blockForLoad, if_pos hb, State.readBlock_plain ho]
    exact ⟨rfl, fun _ => rfl, hs, fun a ha => by rw [State.dataByte_off hon, hmem _ a ha]⟩
  | true =>
    have hb : s.bypassD wimg = false := by simp [State.bypassD, hon, hi hon]
    rw [State.blockForLoad, if_neg (by simp [hb])]
    cases hf : findD s.dcache (blockOf pa) with
    | some l =>
      obtain ⟨hm, hlb⟩ := findD_some hf
      obtain ⟨-, hcoh, hram⟩ := hs.2 hon
      refine ⟨rfl, ?_, State.dataSound_putD l hs (hcoh l hm) (hram l hm), ?_⟩
      · intro a
        rw [State.dataByte_putD s l hon]
        split
        · rename_i h
          rw [State.dataByte_hit hon (l := l) (by rw [h, hlb, hf])]
        · rfl
      · intro a ha
        rw [State.dataByte_hit hon (l := l) (by rw [ha, hf])]
    | none =>
      by_cases hlock : s.dcacheLocked = true
      · simp only [if_pos hlock, State.readBlock_plain ho]
        exact ⟨rfl, fun _ => rfl, hs, fun a ha => by rw [State.dataByte_miss (by rw [ha, hf]), hmem _ a ha]⟩
      · simp only [if_neg hlock]
        obtain ⟨h1, h2, h3, h4⟩ := s.evictD_spec (blockOf pa) hon hs
        have ho1 : (s.evictD (blockOf pa)).ordinary u (blockOf pa) := by rw [h1]; exact ho
        simp only [State.readBlock_plain ho1]
        have hon1 : (s.evictD (blockOf pa)).dcacheOn = true := by rw [h1]; exact hon
        have hmiss : ∀ a, blockOf a = blockOf pa → s.dataByte a = Memory.read (s.evictD (blockOf pa)).mem a.toNat := by
          intro a ha
          rw [← h2 a, State.dataByte_miss (by rw [ha]; exact h4 hf)]
        refine ⟨?_, ?_, State.dataSound_putD _ (State.dataSound_logTenure k _ _ _ h3) ?_ ?_, ?_⟩
        · rw [State.onlyMemorySystem, State.putD, State.logTenure, State.logBus]; rw [h1]
        · intro a
          rw [State.dataByte_putD _ _ (by exact hon1)]
          split
          · rename_i h
            rw [hmem _ a h, hmiss a h]
          · exact h2 a
        · intro _ i hi
          exact blockByte_memoryBlock _ _ _ hi
        · intro h
          exfalso
          revert h
          unfold State.readMesi
          simp only
          split <;> intro h <;> cases h
        · intro a ha
          rw [hmiss a ha, hmem _ a ha]

/-- The bytes a load of one block's plain storage gives. -/
theorem State.loadPhys_spec (s : State) {u : Use} (wimg : BitVec 4) (k : BusKind) (pas : List Word) (b : BitVec 27)
    (hb : ∀ a ∈ pas, blockOf a = b) (hs : s.dataSound) (ho : s.ordinary u b)
    (hi : s.dcacheOn = true → attrI wimg = false) :
    (s.loadPhys wimg k pas).1 = pas.map s.dataByte ∧ s.onlyMemorySystem (s.loadPhys wimg k pas).2 ∧
      s.sameBytes (s.loadPhys wimg k pas).2 ∧ (s.loadPhys wimg k pas).2.dataSound := by
  cases pas with
  | nil => exact ⟨rfl, rfl, fun _ => rfl, hs⟩
  | cons pa t =>
    have hpa : blockOf pa = b := hb pa List.mem_cons_self
    obtain ⟨h1, h2, h3, h4⟩ :=
      s.blockForLoad_spec wimg k pa (lowest pa (pa :: t)) (pa :: t).length hs (hpa.symm ▸ ho) hi
    refine ⟨?_, h1, h2, h3⟩
    refine List.map_congr_left fun a ha => h4 a ?_
    rw [hb a ha, hpa]

/-! ### Stores -/

theorem blockByte_patch_other (ws : List (Word × Byte)) : ∀ (d : Vector Byte 32) (i : Nat),
    (∀ p ∈ ws, blockOffset p.1 ≠ i) → blockByte (patchBlock d ws) i = blockByte d i := by
  induction ws with
  | nil => intro d i _; rfl
  | cons p t ih =>
    intro d i h
    rw [patchBlock, ih _ i fun x hx => h x (List.mem_cons_of_mem _ hx)]
    have := h p List.mem_cons_self
    simp [blockByte, List.getD, this]

theorem blockByte_patch_mem (ws : List (Word × Byte)) : ∀ (d : Vector Byte 32), (ws.map fun p => blockOffset p.1).Nodup →
    ∀ p ∈ ws, blockByte (patchBlock d ws) (blockOffset p.1) = p.2 := by
  induction ws with
  | nil => intro d _ p hp; cases hp
  | cons w t ih =>
    intro d h p hp
    rw [List.map_cons, List.nodup_cons] at h
    rcases List.mem_cons.1 hp with rfl | hp
    · rw [patchBlock, blockByte_patch_other t]
      · simp [blockByte, List.getD, blockOffset_lt]
      · intro x hx e
        exact h.1 (List.mem_map.2 ⟨x, hx, e⟩)
    · exact ih _ h.2 p hp

theorem nodup_offsets {ws : List (Word × Byte)} {b : BitVec 27} (hb : ∀ p ∈ ws, blockOf p.1 = b)
    (hn : (ws.map Prod.fst).Nodup) : (ws.map fun p => blockOffset p.1).Nodup := by
  induction ws with
  | nil => exact List.nodup_nil
  | cons w t ih =>
    rw [List.map_cons, List.nodup_cons] at hn ⊢
    refine ⟨fun h => ?_, ih (fun p hp => hb p (List.mem_cons_of_mem _ hp)) hn.2⟩
    obtain ⟨p, hp, e⟩ := List.mem_map.1 h
    refine hn.1 (List.mem_map.2 ⟨p, hp, ?_⟩)
    exact eq_of_block_offset ((hb p (List.mem_cons_of_mem _ hp)).trans (hb w List.mem_cons_self).symm) e

/-- Memory with the bytes written, seen through one block. -/
theorem read_patchMemory_eq_patchBlock {m : List Host.Cell} (hw : Memory.wf m = true) (d : Vector Byte 32)
    (b : BitVec 27) (ws : List (Word × Byte)) (hb : ∀ p ∈ ws, blockOf p.1 = b) (hn : (ws.map Prod.fst).Nodup)
    (hd : ∀ i < 32, blockByte d i = Memory.read m (b.toNat * 32 + i)) :
    ∀ i < 32, blockByte (patchBlock d ws) i = Memory.read (patchMemory m ws) (b.toNat * 32 + i) := by
  have hoff := nodup_offsets hb hn
  intro i hi
  by_cases h : ∃ p ∈ ws, blockOffset p.1 = i
  · obtain ⟨p, hp, rfl⟩ := h
    have := read_patchMemory_mem ws m hw hn p hp
    rw [addr_eq_block_offset, hb p hp] at this
    rw [blockByte_patch_mem ws d hoff p hp, this]
  · have h' : ∀ p ∈ ws, blockOffset p.1 ≠ i := fun p hp e => h ⟨p, hp, e⟩
    rw [blockByte_patch_other ws d i h', hd i hi, read_patchMemory_other ws m hw]
    intro p hp e
    have h1 := addr_eq_block_offset p.1
    rw [hb p hp] at h1
    have := h' p hp
    omega

theorem State.dataByte_storeMemory_hit {s : State} (hon : s.dcacheOn = true) (k : BusKind) (w : BitVec 3) {pa : Word}
    (hk : s.kindOf (blockOf pa) = .ram) (ws : List (Word × Byte)) {a : Word} {l : DLine}
    (hf : findD s.dcache (blockOf a) = some l) : (s.storeMemory k w pa ws).dataByte a = s.dataByte a := by
  rw [State.dataByte_hit hon hf, State.storeMemory_ram hk]
  exact State.dataByte_hit (by exact hon) hf

theorem State.dataByte_storeMemory_miss {s : State} (k : BusKind) (w : BitVec 3) {pa : Word}
    (hk : s.kindOf (blockOf pa) = .ram) (ws : List (Word × Byte)) {a : Word}
    (hf : s.dcacheOn = true → findD s.dcache (blockOf a) = none) :
    (s.storeMemory k w pa ws).dataByte a = Memory.read (patchMemory s.mem ws) a.toNat := by
  rw [State.storeMemory_ram hk]
  cases hon : s.dcacheOn with
  | false => exact State.dataByte_off (by exact hon) a
  | true => exact State.dataByte_miss (by exact hf hon)

theorem State.wroteBytes_putD (s u : State) (ws : List (Word × Byte)) (b : BitVec 27) (d : Vector Byte 32) (m : Mesi)
    (hb : ∀ p ∈ ws, blockOf p.1 = b) (hn : (ws.map Prod.fst).Nodup) (hon : u.dcacheOn = true)
    (hd : ∀ a, blockOf a = b → blockByte d (blockOffset a) = s.dataByte a)
    (hu : ∀ a, blockOf a ≠ b → u.dataByte a = s.dataByte a) :
    s.wroteBytes (u.putD ⟨b, patchBlock d ws, m⟩) ws := by
  have hoff := nodup_offsets hb hn
  constructor
  · intro p hp
    rw [State.dataByte_putD _ _ hon, if_pos (hb p hp)]
    exact blockByte_patch_mem ws d hoff p hp
  · intro a ha
    rw [State.dataByte_putD _ _ hon]
    split
    · rename_i h
      rw [← hd a h]
      refine blockByte_patch_other ws d _ fun p hp e => ?_
      exact ha p hp (eq_of_block_offset (h.trans (hb p hp).symm) e.symm)
    · rename_i h
      exact hu a h

/-- What a store to plain storage in one block does: the bytes written are seen, every other byte stays, and only
the cache, memory and the bus log change. -/
theorem State.storePhys_spec (s : State) (wimg : BitVec 4) (atomic : Bool) (ws : List (Word × Byte)) (b : BitVec 27)
    (hb : ∀ p ∈ ws, blockOf p.1 = b) (hn : (ws.map Prod.fst).Nodup) (hs : s.dataSound) (hk : s.kindOf b = .ram)
    (hi : s.dcacheOn = true → attrI wimg = false) :
    s.onlyMemorySystem (s.storePhys wimg atomic ws) ∧ s.wroteBytes (s.storePhys wimg atomic ws) ws ∧
      (s.storePhys wimg atomic ws).dataSound := by
  cases hws : ws with
  | nil => exact ⟨rfl, ⟨fun p hp => absurd hp List.not_mem_nil, fun _ _ => rfl⟩, hs⟩
  | cons w tl =>
  obtain ⟨pa, v⟩ := w
  have hunfold : s.storePhys wimg atomic ws =
      let wk : BusKind := if atomic then .writeFlushAtomic else .writeFlush
      if s.bypassD wimg then s.storeMemory wk (busWim wimg true) pa ws
      else match findD s.dcache (blockOf pa) with
        | some l =>
          if attrW wimg then (s.storeMemory wk (busWim wimg false) pa ws).putD { l with data := patchBlock l.data ws }
          else
            (if l.mesi = .shared then s.logTenure .kill (lowest pa (List.map Prod.fst ((pa, v) :: tl))) (busWim wimg false) 0
              else s).putD
              { l with data := patchBlock l.data ws, mesi := .modified }
        | none =>
          if attrW wimg || s.dcacheLocked then s.storeMemory wk (busWim wimg s.dcacheLocked) pa ws
          else
            let r := (s.evictD (blockOf pa)).readBlock (blockOf pa)
            (r.2.logTenure (if atomic then .rwitmAtomic else .rwitm) (burstAddr pa) (busWim wimg false) 32).putD
              ⟨blockOf pa, patchBlock r.1 ws, .modified⟩ := by
    subst hws; rfl
  rw [← hws]
  have hpa : blockOf pa = b := hb (pa, v) (by rw [hws]; exact List.mem_cons_self)
  have hkp : s.kindOf (blockOf pa) = .ram := hpa ▸ hk
  have hmem : ∀ q, (∀ p ∈ ws, q ≠ p.1) → Memory.read (patchMemory s.mem ws) q.toNat = Memory.read s.mem q.toNat :=
    fun q hq => read_patchMemory_other ws s.mem hs.1 _ fun p hp e => hq p hp (BitVec.eq_of_toNat_eq e)
  rw [hunfold]
  clear hunfold
  simp only
  generalize (if atomic then BusKind.writeFlushAtomic else .writeFlush) = wk
  cases hon : s.dcacheOn with
  | false =>
    have hbp : s.bypassD wimg = true := by simp [State.bypassD, hon]
    rw [if_pos hbp]
    refine ⟨?_, ⟨fun p hp => ?_, fun a ha => ?_⟩, ?_⟩
    · rw [State.storeMemory_ram hkp]; rfl
    · rw [State.dataByte_storeMemory_miss _ _ hkp _ (by simp [hon])]
      exact read_patchMemory_mem ws s.mem hs.1 hn p hp
    · rw [State.dataByte_storeMemory_miss _ _ hkp _ (by simp [hon]), State.dataByte_off hon]
      exact hmem a ha
    · rw [State.storeMemory_ram hkp]
      refine ⟨wf_patchMemory _ _ hs.1, fun h => ?_⟩
      rw [show State.dcacheOn { s with
        mem := patchMemory s.mem ws
        busLog := .tenure wk (lowest pa (ws.map Prod.fst)) _ _ ws.length :: s.busLog } = s.dcacheOn from rfl, hon] at h
      cases h
  | true =>
    have hbp : s.bypassD wimg = false := by simp [State.bypassD, hon, hi hon]
    obtain ⟨hdis, hcoh, hram⟩ := hs.2 hon
    rw [if_neg (by simp [hbp])]
    have miss : ∀ wim, findD s.dcache b = none → s.onlyMemorySystem (s.storeMemory wk wim pa ws) ∧
        s.wroteBytes (s.storeMemory wk wim pa ws) ws ∧ (s.storeMemory wk wim pa ws).dataSound := by
      intro wim hf
      refine ⟨?_, ⟨fun p hp => ?_, fun a ha => ?_⟩, ?_⟩
      · rw [State.storeMemory_ram hkp]; rfl
      · rw [State.dataByte_storeMemory_miss _ _ hkp _ fun _ => by rw [hb p hp]; exact hf]
        exact read_patchMemory_mem ws s.mem hs.1 hn p hp
      · cases hfa : findD s.dcache (blockOf a) with
        | none =>
          rw [State.dataByte_miss hfa, State.dataByte_storeMemory_miss _ _ hkp _ fun _ => hfa]
          exact hmem a ha
        | some x =>
          exact State.dataByte_storeMemory_hit hon _ _ hkp _ hfa
      · rw [State.storeMemory_ram hkp]
        refine ⟨wf_patchMemory _ _ hs.1, fun _ => ⟨hdis, ?_, hram⟩⟩
        intro l hl hlm i hi32
        rw [hcoh l hl hlm i hi32]
        refine (read_patchMemory_other ws s.mem hs.1 _ fun p hp e => ?_).symm
        obtain ⟨h1, -⟩ := cell_block hi32 e.symm rfl
        have hx := findD_of_mem hdis hl
        rw [← h1, hb p hp, hf] at hx
        cases hx
    cases hf : findD s.dcache (blockOf pa) with
    | none =>
      simp only
      by_cases hwl : (attrW wimg || s.dcacheLocked) = true
      · rw [if_pos hwl]
        exact miss _ (hpa ▸ hf)
      · rw [if_neg hwl]
        obtain ⟨h1, h2, h3, h4⟩ := s.evictD_spec (blockOf pa) hon hs
        have hon1 : (s.evictD (blockOf pa)).dcacheOn = true := by rw [h1]; exact hon
        have hk1 : (s.evictD (blockOf pa)).kindOf (blockOf pa) = .ram := by rw [h1]; exact hkp
        rw [State.readBlock_plain (u := .load) (.inl hk1)]
        refine ⟨?_, ?_, State.dataSound_putD _ (State.dataSound_logTenure _ _ _ _ h3) (fun h => absurd rfl h) fun _ => hk1⟩
        · rw [State.onlyMemorySystem, State.putD, State.logTenure, State.logBus]; rw [h1]
        · rw [hpa]
          refine State.wroteBytes_putD s _ ws b _ .modified hb hn (by rw [← hpa]; exact hon1) ?_ ?_
          · intro a ha
            rw [blockByte_memoryBlock _ _ _ (blockOffset_lt a), ← h2 a,
              State.dataByte_miss (by rw [ha, ← hpa]; exact h4 hf), addr_eq_block_offset a, ha, hpa]
          · intro a _
            rw [← h2 a, hpa]
            rfl
    | some l =>
      obtain ⟨hlm, hlb⟩ := findD_some hf
      have hseen : ∀ a, blockOf a = b → blockByte l.data (blockOffset a) = s.dataByte a := fun a ha => by
        rw [State.dataByte_hit hon (by rw [ha, ← hpa]; exact hf)]
      have hblk : l.block = b := hlb.trans hpa
      simp only
      by_cases hW : attrW wimg = true
      · rw [if_pos hW]
        have hl' : ({ l with data := patchBlock l.data ws } : DLine) = ⟨b, patchBlock l.data ws, l.mesi⟩ := by
          rw [← hblk]
        rw [hl']
        have hon1 : (s.storeMemory wk (busWim wimg false) pa ws).dcacheOn = true := by
          rw [State.storeMemory_ram hkp]; exact hon
        refine ⟨?_, State.wroteBytes_putD s _ ws b _ _ hb hn hon1 hseen ?_, ?_⟩
        · rw [State.storeMemory_ram hkp]; rfl
        · intro a ha
          cases hfa : findD s.dcache (blockOf a) with
          | none =>
            rw [State.dataByte_miss hfa, State.dataByte_storeMemory_miss _ _ hkp _ fun _ => hfa]
            exact hmem a fun p hp e => ha (e ▸ hb p hp)
          | some x =>
            exact State.dataByte_storeMemory_hit hon _ _ hkp _ hfa
        · rw [State.storeMemory_ram hkp]
          refine ⟨wf_patchMemory _ _ hs.1, fun _ => ⟨nodup_putD hdis _, ?_, ?_⟩⟩
          · intro x hx hxm i hi32
            rcases List.mem_cons.1 hx with rfl | hx
            · refine read_patchMemory_eq_patchBlock hs.1 l.data b ws hb hn ?_ i hi32
              intro j hj
              rw [hcoh l hlm hxm j hj, hblk]
            · obtain ⟨hx1, hx2⟩ := mem_dropD.1 hx
              rw [hcoh x hx1 hxm i hi32]
              refine (read_patchMemory_other ws s.mem hs.1 _ fun p hp e => ?_).symm
              obtain ⟨h1, -⟩ := cell_block hi32 e.symm rfl
              exact hx2 (h1.symm.trans (hb p hp))
          · intro x hx hxm
            rcases List.mem_cons.1 hx with rfl | hx
            · exact hk
            · exact hram x (mem_dropD.1 hx).1 hxm
      · rw [if_neg hW]
        have hl' : ({ l with data := patchBlock l.data ws, mesi := .modified } : DLine) =
            ⟨b, patchBlock l.data ws, .modified⟩ := by rw [← hblk]
        rw [hl']
        split
        · exact ⟨rfl, State.wroteBytes_putD s _ ws b _ _ hb hn hon hseen fun _ _ => rfl,
            State.dataSound_putD _ (State.dataSound_logTenure _ _ _ _ hs) (fun h => absurd rfl h) fun _ => hk⟩
        · exact ⟨rfl, State.wroteBytes_putD s _ ws b _ _ hb hn hon hseen fun _ _ => rfl,
            State.dataSound_putD _ hs (fun h => absurd rfl h) fun _ => hk⟩

end Sys2Proof.Machine
end

