-- ==== Sys2Proof/Laws/Mmu.lean ====
section
/-! SUPPORT. Laws/Mmu.lean: what a translation and a physical access can change, and that they keep memory's
canonical form. -/

namespace Sys2Proof.Machine

/-- Only storage changes, and memory keeps its canonical form if it had it. -/
def State.storageStep (s t : State) : Prop := s.onlyStorage t ∧ (Memory.wf s.mem = true → Memory.wf t.mem = true)

theorem State.onlyStorage_refl (s : State) : s.onlyStorage s := rfl

theorem State.onlyStorage_trans {s t u : State} (h : s.onlyStorage t) (h' : t.onlyStorage u) : s.onlyStorage u := by
  unfold State.onlyStorage at *
  rw [h']
  rw [h]

theorem State.storageStep_refl (s : State) : s.storageStep s := ⟨rfl, id⟩

theorem State.storageStep_trans {s t u : State} (h : s.storageStep t) (h' : t.storageStep u) : s.storageStep u :=
  ⟨State.onlyStorage_trans h.1 h'.1, fun hw => h'.2 (h.2 hw)⟩

theorem State.storageStep_logTenure (s : State) (k : BusKind) (pa : Word) (w : BitVec 3) (n : Nat) :
    s.storageStep (s.logTenure k pa w n) := ⟨rfl, id⟩

theorem State.storageStep_logBus (s : State) (op : BusOp) : s.storageStep (s.logBus op) := ⟨rfl, id⟩

theorem State.storageStep_putD (s : State) (l : DLine) : s.storageStep (s.putD l) := ⟨rfl, id⟩

theorem State.storageStep_drawWord (s : State) : s.storageStep s.drawWord.2 := ⟨rfl, id⟩

theorem State.storageStep_drawBit (s : State) : s.storageStep s.drawBit.2 := ⟨rfl, id⟩

/-- A read outside the processor. -/
theorem State.storageStep_readBlock (s : State) (b : BitVec 27) : s.storageStep (s.readBlock b).2 := by
  unfold State.readBlock
  split <;> exact ⟨rfl, id⟩

/-- A write outside the processor. -/
theorem State.storageStep_writeBlock (s : State) (b : BitVec 27) (m : List Host.Cell) (ws : List (Word × Byte))
    (h : Memory.wf s.mem = true → Memory.wf m = true) : s.storageStep (s.writeBlock b m ws) := by
  unfold State.writeBlock
  split
  · exact ⟨rfl, h⟩
  all_goals exact ⟨rfl, id⟩

theorem State.storageStep_writeBack (s : State) (l : DLine) : s.storageStep (s.writeBack l) :=
  State.storageStep_trans (s.storageStep_writeBlock _ _ _ fun h => Memory.wf_writeBytes _ _ _ h)
    (State.storageStep_logTenure _ _ _ _ _)

theorem State.storageStep_storeMemory (s : State) (k : BusKind) (w : BitVec 3) (pa : Word) (ws : List (Word × Byte)) :
    s.storageStep (s.storeMemory k w pa ws) :=
  State.storageStep_trans (s.storageStep_writeBlock _ _ _ fun h => wf_patchMemory _ _ h)
    (State.storageStep_logTenure _ _ _ _ _)

theorem State.storageStep_evictD (s : State) (b : BitVec 27) : s.storageStep (s.evictD b) := by
  unfold State.evictD
  simp only
  split
  · exact s.storageStep_refl
  · split
    · exact s.storageStep_refl
    · rename_i v _
      by_cases h : v.mesi = .modified
      · rw [if_pos h]
        exact State.storageStep_trans (s.storageStep_writeBack v) ⟨rfl, id⟩
      · rw [if_neg h]
        exact ⟨rfl, id⟩

theorem State.storageStep_blockForLoad (s : State) (wimg : BitVec 4) (k : BusKind) (pa addr : Word) (n : Nat) :
    s.storageStep (s.blockForLoad wimg k pa addr n).2 := by
  have single := State.storageStep_trans (s.storageStep_readBlock (blockOf pa))
    (State.storageStep_logTenure _ k addr (busWim wimg true) n)
  unfold State.blockForLoad
  simp only
  split
  · exact single
  · split
    · exact s.storageStep_putD _
    · split
      · exact single
      · exact State.storageStep_trans (State.storageStep_trans (State.storageStep_trans (s.storageStep_evictD _)
          (State.storageStep_readBlock _ _)) (State.storageStep_logTenure _ k _ _ _)) (State.storageStep_putD _ _)

/-- A physical load. -/
theorem State.storageStep_loadPhys (s : State) (wimg : BitVec 4) (k : BusKind) (pas : List Word) :
    s.storageStep (s.loadPhys wimg k pas).2 := by
  cases pas with
  | nil => exact s.storageStep_refl
  | cons pa t => exact s.storageStep_blockForLoad wimg k pa _ _

/-- A physical store. -/
theorem State.storageStep_storePhys (s : State) (wimg : BitVec 4) (atomic : Bool) (ws : List (Word × Byte)) :
    s.storageStep (s.storePhys wimg atomic ws) := by
  cases ws with
  | nil => exact s.storageStep_refl
  | cons w t =>
    unfold State.storePhys
    simp only
    split
    · exact s.storageStep_storeMemory _ _ _ _
    · split
      · split
        · exact State.storageStep_trans (s.storageStep_storeMemory _ _ _ _) (State.storageStep_putD _ _)
        · split
          · exact State.storageStep_trans (s.storageStep_logTenure _ _ _ _) (State.storageStep_putD _ _)
          · exact s.storageStep_putD _
      · split
        · exact s.storageStep_storeMemory _ _ _ _
        · exact State.storageStep_trans (State.storageStep_trans (State.storageStep_trans (s.storageStep_evictD _)
            (State.storageStep_readBlock _ _)) (State.storageStep_logTenure _ _ _ _ _)) (State.storageStep_putD _ _)

/-! ### Translation -/

theorem State.storageStep_setTlb (s : State) (u : Use) (t : List TlbEntry) : s.storageStep (s.setTlb u t) := by
  unfold State.setTlb
  split <;> exact ⟨rfl, id⟩

theorem State.storageStep_readTable (s : State) (pa : Word) : s.storageStep (s.readTable pa).2 :=
  s.storageStep_loadPhys _ _ _

theorem storageStep_searchGroup (tag : Word) (n : Nat) : ∀ (pa : Word) (s : State),
    s.storageStep (searchGroup tag n pa s).2 := by
  induction n with
  | zero => intro pa s; exact s.storageStep_refl
  | succ n ih =>
    intro pa s
    unfold searchGroup
    simp only
    split
    · exact State.storageStep_trans (s.storageStep_readTable pa) (State.storageStep_readTable _ _)
    · exact State.storageStep_trans (s.storageStep_readTable pa) (ih _ _)

theorem State.storageStep_tableSearch (s : State) (vsid : BitVec 24) (ea : Word) :
    s.storageStep (s.tableSearch vsid ea).2 := by
  unfold State.tableSearch
  simp only
  split
  · exact storageStep_searchGroup _ _ _ _
  · exact State.storageStep_trans (storageStep_searchGroup _ _ _ _) (storageStep_searchGroup _ _ _ _)

theorem State.storageStep_writePteByte (s : State) (pa : Word) (v : Byte) : s.storageStep (s.writePteByte pa v) := by
  have h := State.storageStep_trans (s.storageStep_logTenure .read pa 0b001 1)
    (State.storageStep_storeMemory _ .writeFlush 0b001 pa [(pa, v)])
  unfold State.writePteByte
  simp only
  split
  · exact State.storageStep_trans h (State.storageStep_putD _ _)
  · exact h

theorem State.storageStep_setReferenced (s : State) (p : PteHit) : s.storageStep (s.setReferenced p) := by
  unfold State.setReferenced
  split
  · exact s.storageStep_refl
  · exact s.storageStep_writePteByte _ _

theorem State.storageStep_setChanged (s : State) (p : PteHit) : s.storageStep (s.setChanged p) :=
  s.storageStep_writePteByte _ _

/-- Loading an entry writes one TLB: nothing of a set with an invalid way leaves, of a full set the least or the most
recently used entry does, by a free bit. -/
theorem State.loadTlb_cases (s : State) (u : Use) (e : TlbEntry) :
    ((tlbSet (s.tlb u) e.index).length < 2 ∧ s.loadTlb u e = s.setTlb u (tlbReplace (s.tlb u) none e)) ∨
    (2 ≤ (tlbSet (s.tlb u) e.index).length ∧ ∃ v,
      (v = (tlbSet (s.tlb u) e.index).getLast? ∨ v = (tlbSet (s.tlb u) e.index).head?) ∧
      s.loadTlb u e = s.drawBit.2.setTlb u (tlbReplace (s.tlb u) v e)) := by
  unfold State.loadTlb
  simp only
  split
  · exact .inl ⟨‹_›, rfl⟩
  · refine .inr ⟨by omega, _, ?_, rfl⟩
    split
    · exact .inl rfl
    · exact .inr rfl

theorem State.storageStep_loadTlb (s : State) (u : Use) (e : TlbEntry) : s.storageStep (s.loadTlb u e) := by
  obtain ⟨-, h⟩ | ⟨-, v, -, h⟩ := s.loadTlb_cases u e <;> rw [h]
  · exact s.storageStep_setTlb _ _
  · exact State.storageStep_trans s.storageStep_drawBit (State.storageStep_setTlb _ _ _)

theorem State.storageStep_findEntry (s : State) (u : Use) (vsid : BitVec 24) (ea : Word) :
    s.storageStep (s.findEntry u vsid ea).2 := by
  unfold State.findEntry
  split
  · exact s.storageStep_setTlb _ _
  · simp only
    split
    · exact s.storageStep_tableSearch _ _
    · exact State.storageStep_trans (State.storageStep_trans (s.storageStep_tableSearch _ _)
        (State.storageStep_setReferenced _ _)) (State.storageStep_loadTlb _ _ _)

theorem State.storageStep_markChanged (s : State) (u : Use) (ea : Word) (e : TlbEntry) (p : Option PteHit) :
    s.storageStep (s.markChanged u ea e p).2 := by
  unfold State.markChanged
  simp only
  split
  · exact State.storageStep_trans (s.storageStep_setChanged _) (State.storageStep_setTlb _ _ _)
  · split
    · exact State.storageStep_trans (State.storageStep_trans (State.storageStep_trans (s.storageStep_tableSearch _ _)
        (State.storageStep_setReferenced _ _)) (State.storageStep_setChanged _ _)) (State.storageStep_setTlb _ _ _)
    · exact s.storageStep_tableSearch _ _

theorem State.storageStep_translatePage (s : State) (u : Use) (sr ea : Word) :
    s.storageStep (s.translatePage u sr ea).2 := by
  have h0 := s.storageStep_findEntry u (srVsid sr) ea
  unfold State.translatePage
  simp only
  split
  · exact h0
  · split
    · exact h0
    · split
      · exact h0
      · split
        · exact h0
        · split
          · exact State.storageStep_trans h0 (State.storageStep_markChanged _ _ _ _ _)
          · exact h0

/-- What a translation can change. -/
theorem State.storageStep_translate (s : State) (u : Use) (ea : Word) : s.storageStep (s.translate u ea).2 := by
  unfold State.translate
  simp only
  split
  · exact s.storageStep_refl
  · split
    · exact s.storageStep_refl
    · split
      · exact s.storageStep_refl
      · split
        · split
          · exact s.storageStep_refl
          · split <;> exact s.storageStep_refl
        · unfold State.translateSegment
          simp only
          split
          · exact s.storageStep_refl
          · split
            · exact s.storageStep_refl
            · exact s.storageStep_translatePage u _ ea

/-! ### The page offset -/

theorem bat_address_offset (b : Bat) (ea : Word) : (b.address ea).extractLsb' 0 12 = ea.extractLsb' 0 12 := by
  unfold Bat.address
  apply BitVec.eq_of_getLsbD_eq
  intro i hi
  have h17 : i < 17 := by omega
  simp only [BitVec.getLsbD_extractLsb', hi, decide_true, Bool.true_and, Nat.zero_add]
  rw [BitVec.getLsbD_append]
  simp [h17]

theorem page_address_offset (r : BitVec 20) (ea : Word) :
    (r ++ ea.extractLsb' 0 12 : Word).extractLsb' 0 12 = ea.extractLsb' 0 12 := by
  apply BitVec.eq_of_getLsbD_eq
  intro i hi
  simp only [BitVec.getLsbD_extractLsb', hi, decide_true, Bool.true_and, Nat.zero_add]
  rw [BitVec.getLsbD_append]
  simp [hi]

theorem State.deliver_offset (s : State) (u : Use) (ea pa : Word) (w : BitVec 4) (q : Word) (w' : BitVec 4)
    (h : s.deliver u ea pa w = .mapped q w') : q = pa := by
  unfold State.deliver at h
  split at h
  · cases h
  · cases h; rfl

/-- A translation keeps the offset in the 4-Kbyte page (R209, R226). -/
theorem State.translate_offset (s : State) (u : Use) (ea pa : Word) (w : BitVec 4) (t : State)
    (h : s.translate u ea = (.mapped pa w, t)) : pa.extractLsb' 0 12 = ea.extractLsb' 0 12 := by
  unfold State.translate at h
  simp only at h
  split at h
  · cases h
  · split at h
    · rw [State.deliver_offset _ _ _ _ _ _ _ (Prod.mk.inj h).1]
    · split at h
      · cases h
      · split at h
        · split at h
          · cases h
          · split at h
            · cases h
            · rw [State.deliver_offset _ _ _ _ _ _ _ (Prod.mk.inj h).1, bat_address_offset]
        · unfold State.translateSegment at h
          simp only at h
          split at h
          · split at h <;> cases h
          · split at h
            · cases h
            · unfold State.translatePage at h
              simp only at h
              split at h
              · cases h
              · split at h
                · cases h
                · split at h
                  · cases h
                  · split at h
                    · cases h
                    · split at h
                      · have h1 := (Prod.mk.inj h).1
                        split at h1
                        · cases h1; exact page_address_offset _ _
                        · cases h1
                      · cases h; exact page_address_offset _ _

end Sys2Proof.Machine
end

