-- ==== Sys2Proof/Laws/Access.lean ====
section
/-! SUPPORT. Laws/Access.lean: what a data access can change, and what an access to plain storage answers. -/

namespace Sys2Proof.Machine

/-! ### The addresses of a part -/

theorem toNat_add_in_double {pa : Word} {n i : Nat} (h : lowBits pa 3 + n ≤ 8) (hi : i < n) :
    (pa + BitVec.ofNat 32 i).toNat = pa.toNat + i := by
  have hl : lowBits pa 3 = pa.toNat % 8 := by simp [lowBits, BitVec.extractLsb'_toNat]
  have := pa.isLt
  rw [BitVec.toNat_add, BitVec.toNat_ofNat]
  omega

theorem mem_span {pa a : Word} {n : Nat} : a ∈ span pa n ↔ ∃ i < n, a = pa + BitVec.ofNat 32 i := by
  simp [span, eq_comm]

theorem span_block {pa : Word} {n : Nat} (h : lowBits pa 3 + n ≤ 8) : ∀ a ∈ span pa n, blockOf a = blockOf pa := by
  intro a ha
  obtain ⟨i, hi, rfl⟩ := mem_span.1 ha
  have ht := toNat_add_in_double h hi
  have hl : lowBits pa 3 = pa.toNat % 8 := by simp [lowBits, BitVec.extractLsb'_toNat]
  have h1 := addr_eq_block_offset pa
  have h2 := addr_eq_block_offset (pa + BitVec.ofNat 32 i)
  have h3 := blockOffset_lt pa
  have h4 := blockOffset_lt (pa + BitVec.ofNat 32 i)
  apply BitVec.eq_of_toNat_eq
  omega

theorem span_nodup {pa : Word} {n : Nat} (h : lowBits pa 3 + n ≤ 8) : (span pa n).Nodup := by
  refine List.Nodup.map_on ?_ List.nodup_range
  intro i hi j hj e
  have hi' := toNat_add_in_double h (List.mem_range.1 hi)
  have hj' := toNat_add_in_double h (List.mem_range.1 hj)
  rw [e] at hi'
  omega

theorem blockOf_xor7 (a : Word) : blockOf (a ^^^ 7) = blockOf a := by
  apply BitVec.eq_of_getLsbD_eq
  intro i hi
  have h7 : (7 : Nat).testBit (5 + i) = false := Nat.testBit_lt_two_pow (by
    calc 7 < 2 ^ 5 := by decide
      _ ≤ 2 ^ (5 + i) := Nat.pow_le_pow_right (by decide) (by omega))
  simp only [blockOf, BitVec.getLsbD_extractLsb', hi, decide_true, Bool.true_and, BitVec.getLsbD_xor]
  rw [show (7 : Word).getLsbD (5 + i) = (7 : Nat).testBit (5 + i) from rfl, h7, Bool.xor_false]

theorem physSpan_block {le : Bool} {pa : Word} {n : Nat} (h : lowBits pa 3 + n ≤ 8) :
    ∀ a ∈ physSpan le pa n, blockOf a = blockOf pa := by
  intro a ha
  cases le with
  | false => exact span_block h a ha
  | true =>
    obtain ⟨x, hx, rfl⟩ := List.mem_map.1 ha
    rw [blockOf_xor7]
    exact span_block h x hx

theorem physSpan_nodup {le : Bool} {pa : Word} {n : Nat} (h : lowBits pa 3 + n ≤ 8) : (physSpan le pa n).Nodup := by
  cases le with
  | false => exact span_nodup h
  | true =>
    refine List.Nodup.map ?_ (span_nodup h)
    intro x y e
    have := congrArg (· ^^^ (7 : Word)) e
    simpa [BitVec.xor_assoc] using this

@[simp] theorem physSpan_length (le : Bool) (pa : Word) (n : Nat) : (physSpan le pa n).length = n := by
  cases le <;> simp [physSpan, span]

theorem lowBits_of_offset {ea pa : Word} (h : pa.extractLsb' 0 12 = ea.extractLsb' 0 12) : lowBits pa 3 = lowBits ea 3 := by
  have h' := congrArg BitVec.toNat h
  simp only [BitVec.extractLsb'_toNat, Nat.shiftRight_zero] at h'
  simp only [lowBits, BitVec.extractLsb'_toNat, Nat.shiftRight_zero]
  omega

/-- The operand is one part (R154). -/
theorem splitParts_inside {ea : Word} {n : Nat} (h : lowBits ea 2 + n ≤ 4 ∨ (n = 8 ∧ lowBits ea 3 = 0)) :
    splitParts ea n = [⟨ea, n⟩] := by
  rw [splitParts, if_pos h]

theorem lowBits_inside {ea : Word} {n : Nat} (h : lowBits ea 2 + n ≤ 4 ∨ (n = 8 ∧ lowBits ea 3 = 0)) :
    lowBits ea 3 + n ≤ 8 := by
  simp only [lowBits, BitVec.extractLsb'_toNat, Nat.shiftRight_zero] at *
  omega

/-! ### Plain storage is no direct-store segment -/

theorem State.directSegment_of_mapped {s t : State} {u : Use} {ea pa : Word} {w : BitVec 4} (hu : u ≠ .fetch)
    (h : s.translate u ea = (.mapped pa w, t)) : s.directSegment ea = none := by
  unfold State.directSegment State.segmentOf
  by_cases hd : (s.msrDR && !batIllegal s.mmu.dbat s.msrPR ea && (batHits s.mmu.dbat s.msrPR ea).isEmpty) = true
  · rw [if_pos hd]
    by_cases hT : beBit (s.readSr (ea.extractLsb' 28 4)) 0 = true
    · exfalso
      simp only [Bool.and_eq_true, Bool.not_eq_true', List.isEmpty_iff] at hd
      obtain ⟨⟨h1, h2⟩, h3⟩ := hd
      unfold State.translate at h
      simp [State.batArray, hu, h1, h2, h3, State.translationOn, State.translateSegment, hT] at h
    · simp [hT]
  · rw [if_neg hd]; rfl

/-! ### What an access can change -/

/-- The state an access ends in differs from `s` in storage only. -/
def Acc.within (r : Acc) (s : State) : Prop :=
  match r with
  | .ok _ t => s.storageStep t
  | .okError _ _ _ t => s.storageStep t
  | .dsi _ _ _ t => s.storageStep t
  | .align t => s.storageStep t
  | .refuse _ => True

theorem Acc.within_trans {r : Acc} {s t : State} (h : s.storageStep t) (h' : r.within t) : r.within s := by
  cases r <;> first | exact State.storageStep_trans h h' | trivial

theorem failAcc_within (f : XFault) (u : Use) (ea : Word) (done : List Byte) (s : State) :
    (failAcc f u ea done s).within s := by
  cases f <;> first | exact s.storageStep_refl | trivial

theorem mixedDsi_within (u : Use) (ea : Word) (done : List Byte) (s : State) : (mixedDsi u ea done s).within s :=
  State.storageStep_trans s.storageStep_drawBit (State.storageStep_drawBit _)

theorem loadParts_within (u : Use) (ps : List Part) : ∀ (done : List Byte) (s : State),
    (loadParts u ps done s).within s := by
  induction ps with
  | nil => intro done s; exact s.storageStep_refl
  | cons p ps ih =>
    intro done s
    have h := s.storageStep_translate u p.ea
    unfold loadParts
    split <;> rename_i heq <;> rw [heq] at h
    · exact Acc.within_trans (State.storageStep_trans h (State.storageStep_loadPhys _ _ _ _)) (ih _ _)
    · exact Acc.within_trans h (mixedDsi_within _ _ _ _)
    · exact Acc.within_trans h (failAcc_within _ _ _ _ _)

theorem State.storageStep_storePart (s : State) (w : BitVec 4) (a : Bool) (pa : Word) (bs : List Byte) :
    s.storageStep (s.storePart w a pa bs) := s.storageStep_storePhys _ _ _

theorem storeOperand_within (u : Use) (ps : List Part) (bs : List Byte) (s : State) :
    (storeOperand u ps bs s).within s := by
  have partly : ∀ (t : State) (w : BitVec 4) (pa : Word) (l : List Byte), t.storageStep
      (if t.drawBit.1 then t.drawBit.2.storePart w false pa l else t.drawBit.2) := by
    intro t w pa l
    split
    · exact State.storageStep_trans t.storageStep_drawBit (State.storageStep_storePart _ _ _ _ _)
    · exact t.storageStep_drawBit
  cases ps with
  | nil => exact s.storageStep_refl
  | cons p rest =>
    have h := s.storageStep_translate u p.ea
    unfold storeOperand
    simp only
    split <;> rename_i heq <;> rw [heq] at h
    · exact Acc.within_trans h (failAcc_within _ _ _ _ _)
    · exact Acc.within_trans h (mixedDsi_within _ _ _ _)
    · rename_i pa wimg s1
      cases rest with
      | nil => exact State.storageStep_trans h (State.storageStep_storePart _ _ _ _ _)
      | cons q tl =>
        have h2 := s1.storageStep_translate u q.ea
        simp only
        split <;> rename_i heq2 <;> rw [heq2] at h2 <;> refine Acc.within_trans (State.storageStep_trans h h2) ?_
        · exact Acc.within_trans (partly _ _ _ _) (failAcc_within _ _ _ _ _)
        · exact Acc.within_trans (partly _ _ _ _) (mixedDsi_within _ _ _ _)
        · exact State.storageStep_trans (State.storageStep_storePart _ _ _ _ _) (State.storageStep_storePart _ _ _ _ _)

theorem State.storageStep_logDirect (s : State) (sr : Word) (p : Part) (o c : BitVec 8) (d : List Byte) :
    s.storageStep (s.logDirect sr p o c d) := ⟨rfl, id⟩

theorem directLoads_within (sr : Word) (ps : List Part) : ∀ s : State, s.storageStep (directLoads sr ps s).2 := by
  induction ps with
  | nil => intro s; exact s.storageStep_refl
  | cons p ps ih =>
    intro s
    exact State.storageStep_trans (State.storageStep_trans s.storageStep_drawWord
      (State.storageStep_logDirect _ _ _ _ _ _)) (ih _)

theorem directStores_within (sr : Word) (ps : List Part) : ∀ (bs : List Byte) (s : State),
    s.storageStep (directStores sr ps bs s) := by
  induction ps with
  | nil => intro _ s; exact s.storageStep_refl
  | cons p ps ih => intro bs s; exact State.storageStep_trans (s.storageStep_logDirect _ _ _ _ _) (ih _ _)

theorem State.directPartly_within (s : State) (sr : Word) (ps : List Part) (bs : List Byte) :
    s.storageStep (s.directPartly sr ps bs) := by
  unfold State.directPartly
  split
  · exact State.storageStep_trans s.storageStep_drawBit (directStores_within _ _ _ _)
  · exact s.storageStep_drawBit

theorem directReply_within (u : Use) (b : List Byte) (ea : Word) (s : State) : (directReply u b ea s).within s := by
  unfold directReply
  split <;> exact s.storageStep_drawBit

theorem directAccess_within (u : Use) (sr : Word) (ps : List Part) (data : Option (List Byte)) (s : State) :
    (directAccess u sr ps data s).within s := by
  unfold directAccess
  simp only
  split
  · cases data with
    | none => exact s.storageStep_refl
    | some bs => exact s.directPartly_within _ _ _
  · split
    · exact Acc.within_trans (State.storageStep_trans (s.storageStep_logDirect _ _ _ _ _) (directLoads_within _ _ _))
        (directReply_within _ _ _ _)
    · exact Acc.within_trans (directStores_within _ _ _ _) (directReply_within _ _ _ _)

theorem Piece.load_within (u : Use) (s : State) (p : Piece) : (p.load u s).within s := by
  cases p with
  | memory ps => exact loadParts_within u ps [] s
  | direct sr ps => exact directAccess_within u sr ps none s

theorem Piece.store_within (u : Use) (bs : List Byte) (s : State) (p : Piece) : (p.store u bs s).within s := by
  cases p with
  | memory ps => exact storeOperand_within u ps bs s
  | direct sr ps => exact directAccess_within u sr ps (some bs) s

theorem endAcc_within (err : Option (Word × Word)) (done : List Byte) (s : State) : (endAcc err done s).within s := by
  unfold endAcc
  split <;> exact s.storageStep_refl

theorem loadPieces_within (u : Use) (ps : List Piece) : ∀ (err : Option (Word × Word)) (done : List Byte) (s : State),
    (loadPieces u ps err done s).within s := by
  induction ps with
  | nil => intro err done s; exact endAcc_within _ _ _
  | cons p t ih =>
    intro err done s
    have h := p.load_within u s
    unfold loadPieces
    split <;> rename_i heq <;> rw [heq] at h
    · exact Acc.within_trans h (ih _ _ _)
    · exact Acc.within_trans h (ih _ _ _)
    · exact h
    · exact h
    · trivial

theorem storePieces_within (u : Use) (ps : List Piece) : ∀ (err : Option (Word × Word)) (bs : List Byte) (s : State),
    (storePieces u ps err bs s).within s := by
  induction ps with
  | nil => intro err bs s; exact endAcc_within _ _ _
  | cons p t ih =>
    intro err bs s
    have h := p.store_within u (bs.take p.len) s
    unfold storePieces
    split <;> rename_i heq <;> rw [heq] at h
    · exact Acc.within_trans h (ih _ _ _)
    · exact Acc.within_trans h (ih _ _ _)
    · exact h
    · exact h
    · trivial

/-- What a store performs of one operand: all its pieces, or, where it is in two pieces and only the second ends in an
exception, the first by a free bit. -/
theorem State.storedPieces_cases (s : State) (u : Use) (p : Part) :
    s.storedPieces u p = (s.pieces p, s) ∨
    ∃ a b, s.pieces p = [a, b] ∧ a.stops u s = false ∧ b.stops u s = true ∧
      s.storedPieces u p = (if s.drawBit.1 then [a, b] else [b], s.drawBit.2) := by
  unfold State.storedPieces
  split
  · rename_i a b h
    split
    · rename_i hs
      simp only [Bool.and_eq_true, Bool.not_eq_true'] at hs
      exact .inr ⟨a, b, h, hs.1, hs.2, rfl⟩
    · exact .inl (by rw [h])
  · exact .inl rfl

/-- Choosing what a store performs of one operand reads free bits only. -/
theorem State.storedPieces_within (s : State) (u : Use) (p : Part) : s.storageStep (s.storedPieces u p).2 := by
  obtain h | ⟨a, b, -, -, -, h⟩ := s.storedPieces_cases u p <;> rw [h]
  · exact s.storageStep_refl
  · exact s.storageStep_drawBit

/-- Choosing what a store performs reads free bits only. -/
theorem State.storedOperands_within (u : Use) (ops : List Part) : ∀ s : State,
    s.storageStep (s.storedOperands u ops).2 := by
  induction ops with
  | nil => intro s; exact s.storageStep_refl
  | cons p t ih => intro s; exact State.storageStep_trans (s.storedPieces_within u p) (ih _)

/-- The tests before an access end it with nothing done, or leave it to what follows. -/
theorem State.withPieces_within (s : State) (u : Use) (ops : List Part) (k : List Piece → Acc)
    (h : ∀ ps, (k ps).within s) : (s.withPieces u ops k).within s := by
  unfold State.withPieces
  simp only
  split
  · split
    · exact s.storageStep_refl
    · split
      · trivial
      · exact h _
  · exact h _

/-- Loading operands changes storage only. -/
theorem State.loadOperands_within (s : State) (u : Use) (ops : List Part) : (s.loadOperands u ops).within s :=
  s.withPieces_within u ops _ fun _ => loadPieces_within _ _ _ _ _

/-- Storing operands changes storage only. -/
theorem State.storeOperands_within (s : State) (u : Use) (ops : List Part) (bs : List Byte) :
    (s.storeOperands u ops bs).within s :=
  s.withPieces_within u ops _ fun _ =>
    Acc.within_trans (State.storedOperands_within u ops s) (storePieces_within _ _ _ _ _)

/-- An operand in one part that is no direct-store access is one piece in memory. -/
theorem State.pieces_one {s : State} {ea : Word} {n : Nat} (hn : lowBits ea 2 + n ≤ 4 ∨ (n = 8 ∧ lowBits ea 3 = 0))
    (hd : s.directSegment ea = none) : s.pieces ⟨ea, n⟩ = [.memory [⟨ea, n⟩]] := by
  rw [State.pieces, splitParts_inside hn]
  simp only [hd]

/-- A store of such an operand performs that piece. -/
theorem State.storedOperands_one {s : State} {ea : Word} {n : Nat}
    (hn : lowBits ea 2 + n ≤ 4 ∨ (n = 8 ∧ lowBits ea 3 = 0)) (hd : s.directSegment ea = none) (u : Use) :
    s.storedOperands u [⟨ea, n⟩] = ([.memory [⟨ea, n⟩]], s) := by
  simp only [State.storedOperands, State.storedPieces, State.pieces_one hn hd, List.append_nil]

/-- For such an operand an access has no test to pass. -/
theorem State.withPieces_one {s : State} {ea : Word} {n : Nat} (hn : lowBits ea 2 + n ≤ 4 ∨ (n = 8 ∧ lowBits ea 3 = 0))
    (hd : s.directSegment ea = none) (u : Use) (k : List Piece → Acc) :
    s.withPieces u [⟨ea, n⟩] k = k [.memory [⟨ea, n⟩]] := by
  unfold State.withPieces
  simp only [List.flatMap_cons, List.flatMap_nil, List.append_nil, State.pieces_one hn hd, mergePieces]
  rfl

/-! ### Plain storage -/

/-- A load of an operand in one part of plain storage: it is complete, its bytes are those seen at its physical
addresses, and every byte stays as it was seen. -/
theorem State.memRead_plain {s : State} {u : Use} {ea pa : Word} {w : BitVec 4} {n : Nat} (hu : u ≠ .fetch)
    (hp : s.plainStorage u ea pa w) (hs : s.dataSound)
    (hn : lowBits ea 2 + n ≤ 4 ∨ (n = 8 ∧ lowBits ea 3 = 0)) :
    ∃ t, s.memRead u ea n = .ok ((physSpan s.msrLE pa n).map s.dataByte) t ∧ s.onlyMemorySystem t ∧ s.sameBytes t ∧
      t.dataSound := by
  have hoff := lowBits_of_offset (State.translate_offset _ _ _ _ _ _ hp.1)
  have hin : lowBits pa 3 + n ≤ 8 := by rw [hoff]; exact lowBits_inside hn
  obtain ⟨h1, h2, h3, h4⟩ :=
    s.loadPhys_spec w .read (physSpan s.msrLE pa n) (blockOf pa) (physSpan_block hin) hs hp.2.1 hp.2.2
  refine ⟨_, ?_, h2, h3, h4⟩
  rw [State.memRead, State.loadOperands, State.withPieces_one hn (State.directSegment_of_mapped hu hp.1)]
  simp only [loadPieces, Piece.load, loadParts, hp.1, endAcc, List.nil_append, h1]

/-- A store of an operand in one part of plain storage: it is complete, the bytes stored are seen at its physical
addresses, and every other byte stays as it was seen. -/
theorem State.memWrite_plain {s : State} {u : Use} {ea pa : Word} {w : BitVec 4} {bs : List Byte} (hu : u.isStore = true)
    (hp : s.plainStorage u ea pa w) (hs : s.dataSound)
    (hn : lowBits ea 2 + bs.length ≤ 4 ∨ (bs.length = 8 ∧ lowBits ea 3 = 0)) :
    ∃ t, s.memWrite u ea bs = .ok [] t ∧ s.onlyMemorySystem t ∧
      s.wroteBytes t ((physSpan s.msrLE pa bs.length).zip (s.orderBytes bs)) ∧ t.dataSound := by
  have hoff := lowBits_of_offset (State.translate_offset _ _ _ _ _ _ hp.1)
  have hin : lowBits pa 3 + bs.length ≤ 8 := by rw [hoff]; exact lowBits_inside hn
  have hlen : (s.orderBytes bs).length = bs.length := by unfold State.orderBytes; split <;> simp
  have hfst : ((physSpan s.msrLE pa bs.length).zip (s.orderBytes bs)).map Prod.fst = physSpan s.msrLE pa bs.length :=
    List.map_fst_zip (by rw [physSpan_length, hlen])
  obtain ⟨h1, h2, h3⟩ := s.storePhys_spec w false ((physSpan s.msrLE pa bs.length).zip (s.orderBytes bs)) (blockOf pa)
    (fun p hmem => physSpan_block hin p.1 (by rw [← hfst]; exact List.mem_map_of_mem hmem))
    (by rw [hfst]; exact physSpan_nodup hin) hs (State.ordinary_store hp.2.1 hu) hp.2.2
  refine ⟨_, ?_, h1, h2, h3⟩
  have hf : u ≠ .fetch := fun e => by rw [e] at hu; cases hu
  have htake : (s.orderBytes bs).take (Piece.len (.memory [⟨ea, bs.length⟩])) = s.orderBytes bs := by
    rw [List.take_of_length_le]
    simp [Piece.len, totalLen, hlen]
  have hd := State.directSegment_of_mapped hf hp.1
  rw [State.memWrite, State.storeOperands, State.withPieces_one hn hd, State.storedOperands_one hn hd]
  simp only [mergePieces, storePieces, htake, Piece.store, storeOperand, hp.1, endAcc, State.storePart, hlen]

end Sys2Proof.Machine
end

