-- ==== Sys2Proof/Laws/Bits.lean ====
section
/-! SUPPORT. Laws/Bits.lean: which bits a write of one bit or of one field changes. -/

namespace Sys2Proof.Machine

/-- A bit beyond the word is 0. -/
theorem beBit_beyond {n : Nat} (w : BitVec n) {k : Nat} (h : n ≤ k) : beBit w k = false := by
  simp [beBit, BitVec.getMsbD, h]

/-- The one bit of `beMask`. -/
theorem beBit_beMask {i : Nat} (hi : i < 32) (k : Nat) : beBit (beMask i) k = decide (k = i) := by
  by_cases hk : k < 32
  · simp only [beBit, beMask, BitVec.getMsbD, BitVec.getLsbD_shiftLeft, BitVec.getLsbD_one]
    have e : (k = i) ↔ (¬ 31 - k < 31 - i ∧ 31 - k - (31 - i) = 0) := by omega
    simp only [e, hk, decide_true, Bool.true_and]
    by_cases h1 : 31 - k < 31 - i
    · simp [h1]
    · by_cases h2 : 31 - k - (31 - i) = 0
      · simp [h1, h2, show 31 - k < 32 by omega]
      · simp [h1, h2]
  · rw [beBit_beyond _ (by omega)]
    simp
    omega

/-- A write of one bit (R11). -/
theorem beBit_setBeBit (w : Word) {i : Nat} (hi : i < 32) (b : Bool) (k : Nat) :
    beBit (setBeBit w i b) k = if k = i then b else beBit w k := by
  by_cases hk : k < 32
  · have m := beBit_beMask hi k
    have c : beBit (~~~(beMask i)) k = !decide (k = i) := by
      rw [← m]
      simp [beBit, BitVec.getMsbD_not, hk]
    cases b
    · have : beBit (w &&& ~~~(beMask i)) k = (beBit w k && beBit (~~~(beMask i)) k) := BitVec.getMsbD_and
      simp only [setBeBit, Bool.false_eq_true, if_false, this, c]
      by_cases h : k = i <;> simp [h]
    · have : beBit (w ||| beMask i) k = (beBit w k || beBit (beMask i) k) := BitVec.getMsbD_or
      simp only [setBeBit, if_true, this, m]
      by_cases h : k = i <;> simp [h]
  · rw [beBit_beyond _ (by omega), beBit_beyond _ (by omega), if_neg (by omega)]

/-- A write of a 4-bit field (R276). -/
theorem beBit_setField4 (w : Word) {n : Nat} (hn : n < 8) (v : BitVec 4) (k : Nat) :
    beBit (setField4 w n v) k = if k / 4 = n then v.getMsbD (k % 4) else beBit w k := by
  by_cases hk : k < 32
  · have e1 : beBit (setField4 w n v) k =
        ((w.getMsbD k && (~~~(0xF#32 <<< (28 - 4 * n))).getMsbD k) || (v.setWidth 32 <<< (28 - 4 * n)).getMsbD k) := by
      rw [beBit, setField4, BitVec.getMsbD_or, BitVec.getMsbD_and]
    rw [e1]
    have hF : ∀ j, (0xF#32).getLsbD j = decide (j < 4) := by
      intro j
      by_cases h : j < 32
      · interval_cases j <;> rfl
      · rw [BitVec.getLsbD_of_ge _ _ (by omega)]
        simp
        omega
    have e2 : (~~~(0xF#32 <<< (28 - 4 * n))).getMsbD k = !decide (k / 4 = n) := by
      rw [BitVec.getMsbD_not]
      simp only [hk, decide_true, Bool.true_and, BitVec.getMsbD, BitVec.getLsbD_shiftLeft, hF]
      rw [Bool.eq_iff_iff]
      simp
      omega
    have e3 : (v.setWidth 32 <<< (28 - 4 * n)).getMsbD k = (decide (k / 4 = n) && v.getMsbD (k % 4)) := by
      simp only [BitVec.getMsbD, BitVec.getLsbD_shiftLeft, BitVec.getLsbD_setWidth, hk, decide_true, Bool.true_and]
      by_cases h : k / 4 = n
      · have a1 : ¬ 32 - 1 - k < 28 - 4 * n := by omega
        have a2 : 32 - 1 - k - (28 - 4 * n) = 4 - 1 - k % 4 := by omega
        simp [h, a1, a2, show 31 - k < 32 by omega, show 4 - 1 - k % 4 < 32 by omega, show k % 4 < 4 by omega]
      · by_cases a1 : 32 - 1 - k < 28 - 4 * n
        · simp [h, a1]
        · have : 4 ≤ 32 - 1 - k - (28 - 4 * n) := by omega
          simp [h, BitVec.getLsbD_of_ge v _ this]
    rw [e2, e3]
    by_cases h : k / 4 = n <;> simp [h, beBit]
  · rw [beBit_beyond _ (by omega), beBit_beyond _ (by omega), if_neg (by omega)]

/-- The bits of a CR field made of four. -/
theorem crBits_getMsbD (lt gt eq so : Bool) :
    (crBits lt gt eq so).getMsbD 0 = lt ∧ (crBits lt gt eq so).getMsbD 1 = gt ∧ (crBits lt gt eq so).getMsbD 2 = eq ∧
      (crBits lt gt eq so).getMsbD 3 = so := by
  cases lt <;> cases gt <;> cases eq <;> cases so <;> decide

/-- A bit of a field that was read. -/
theorem getField4_getMsbD (w : Word) {n j : Nat} (hn : n < 8) (hj : j < 4) :
    (getField4 w n).getMsbD j = beBit w (4 * n + j) := by
  simp only [getField4, beBit, BitVec.getMsbD, BitVec.getLsbD_setWidth, BitVec.getLsbD_ushiftRight]
  have : 28 - 4 * n + (4 - 1 - j) = 32 - 1 - (4 * n + j) := by omega
  simp [hj, this, show 4 * n + j < 32 by omega, show 3 - j < 4 by omega]

end Sys2Proof.Machine
end

