-- ==== Sys2Proof/Laws/Boundary.lean ====
section
/-! SUPPORT. Laws/Boundary.lean: what another master's operation and the parts of a boundary can change. -/

namespace Sys2Proof.Machine

/-- What an operation of another master can change: the reservation flag, caches, TLBs, memory, the bus log and what
goes with them. -/
def State.snoopStep (s t : State) : Prop :=
  t = { s with
    resv := t.resv, itlb := t.itlb, dtlb := t.dtlb, icache := t.icache, dcache := t.dcache, mem := t.mem
    busLog := t.busLog, fresh := t.fresh, tea := t.tea }

theorem State.snoopStep_refl (s : State) : s.snoopStep s := rfl

theorem State.snoopStep_trans {s t u : State} (h : s.snoopStep t) (h' : t.snoopStep u) : s.snoopStep u := by
  unfold State.snoopStep at *
  rw [h', h]

theorem State.snoopStep_of_storage {s t : State} (h : s.storageStep t) : s.snoopStep t := by
  have h := h.1
  unfold State.onlyStorage at h
  unfold State.snoopStep
  rw [h]

theorem State.snoopStep_snoopPushes (s : State) (k : BusKind) : s.snoopStep (s.snoopPushes k).2 := by
  unfold State.snoopPushes
  split
  · exact State.snoopStep_of_storage (State.storageStep_drawBit s)
  · exact State.snoopStep_refl s

theorem State.snoopStep_snoopData (s : State) (k : BusKind) (b : BitVec 27) : s.snoopStep (s.snoopData k b) := by
  unfold State.snoopData
  split
  · exact State.snoopStep_refl s
  · rename_i l _
    have push : s.snoopStep (if l.mesi = .modified then
        (if (s.snoopPushes k).1 then (s.snoopPushes k).2.writeBack l else (s.snoopPushes k).2) else s) := by
      split
      · split
        · exact State.snoopStep_trans (State.snoopStep_snoopPushes s k)
            (State.snoopStep_of_storage (State.storageStep_writeBack _ l))
        · exact State.snoopStep_snoopPushes s k
      · exact State.snoopStep_refl s
    dsimp only
    split
    · exact State.snoopStep_trans push rfl
    · exact State.snoopStep_trans push rfl

theorem State.snoopStep_snoopOne (s : State) (x : Snoop) : s.snoopStep (s.snoopOne x) := by
  have resv : s.snoopStep
      (if x.gbl && x.kind.releases && s.resvAddr == blockOf x.addr then { s with resv := false } else s) := by
    split <;> rfl
  have data : ∀ t : State, t.snoopStep (if x.gbl then t.snoopData x.kind (blockOf x.addr) else t) := fun t => by
    split
    · exact State.snoopStep_snoopData t _ _
    · rfl
  have icache : ∀ t : State, t.snoopStep (t.invalidateI (blockOf x.addr)) := fun t => by
    unfold State.invalidateI
    split <;> rfl
  have tlb : ∀ t : State, t.snoopStep
      (if x.kind = .tlbInvalidate then t.invalidateTlb (tlbIndex x.addr) else t) := fun t => by
    split <;> rfl
  have filled : ∀ (c : Prop) [Decidable c] (t : State),
      t.snoopStep (if c then t.invalidateI (blockOf x.addr) else t) := fun c _ t => by
    split
    · exact icache t
    · rfl
  exact State.snoopStep_trans (State.snoopStep_trans (State.snoopStep_trans resv (data _)) (filled _ _)) (tlb _)

/-- All that another master's operation can change. -/
theorem State.snoopStep_otherMaster (s : State) (x : Snoop) : s.snoopStep (s.otherMaster x) := by
  have write : ∀ t : State, t.snoopStep (t.masterWrite x) := fun t => by
    unfold State.masterWrite
    split <;> rfl
  unfold State.otherMaster
  refine State.snoopStep_trans ?_ (write _)
  split
  · exact State.snoopStep_refl s
  · exact State.snoopStep_snoopOne s x

/-- The same for all the operations of a boundary. -/
theorem State.snoopStep_snoops (l : List Snoop) : ∀ s : State, s.snoopStep (l.foldl State.otherMaster s) := by
  induction l with
  | nil => exact State.snoopStep_refl
  | cons x l ih => exact fun s => State.snoopStep_trans (State.snoopStep_otherMaster s x) (ih _)

/-- An asynchronous exception, if it is taken, is one of these: the soft reset, the machine check, the checkstop, or
with MSR[EE] = 1 the interrupts in their order. -/
theorem State.asynchronous_cases {s t : State} (h : s.asynchronous = some t) :
    (s.latches.sreset = true ∧
      t = { s with latches := { s.latches with sreset := false } }.takeException 0x00100 s.pc 0) ∨
    (s.latches.mc ≠ McCause.none ∧ s.msrME = true ∧
      t = { s with latches := { s.latches with mc := McCause.none } }.takeMachineCheck s.latches.mc) ∨
    (s.latches.mc ≠ McCause.none ∧ s.msrME = false ∧ t = s.enterCheckstop) ∨
    (s.msrEE = true ∧ s.pins.smi = true ∧ t = s.takeException 0x01400 s.pc 0) ∨
    (s.msrEE = true ∧ s.pins.int = true ∧ t = s.takeException 0x00500 s.pc 0) ∨
    (s.msrEE = true ∧ s.pm.pending = true ∧
      t = { s with pm := { s.pm with pending := false } }.takeException 0x00F00 s.pc 0) ∨
    (s.msrEE = true ∧ s.latches.decPending = true ∧
      t = { s with latches := { s.latches with decPending := false } }.takeException 0x00900 s.pc 0) := by
  unfold State.asynchronous at h
  split at h
  · exact .inl ⟨‹_›, (Option.some.inj h).symm⟩
  split at h
  · split at h
    · exact .inr (.inl ⟨‹_›, ‹_›, (Option.some.inj h).symm⟩)
    · exact .inr (.inr (.inl ⟨‹_›, by simp_all, (Option.some.inj h).symm⟩))
  split at h
  · split at h
    · exact .inr (.inr (.inr (.inl ⟨‹_›, ‹_›, (Option.some.inj h).symm⟩)))
    split at h
    · exact .inr (.inr (.inr (.inr (.inl ⟨‹_›, ‹_›, (Option.some.inj h).symm⟩))))
    split at h
    · exact .inr (.inr (.inr (.inr (.inr (.inl ⟨‹_›, ‹_›, (Option.some.inj h).symm⟩)))))
    split at h
    · exact .inr (.inr (.inr (.inr (.inr (.inr ⟨‹_›, ‹_›, (Option.some.inj h).symm⟩)))))
    · exact absurd h (by simp)
  · exact absurd h (by simp)

end Sys2Proof.Machine
end

