-- ==== Sys2Proof/Laws/Encoding.lean ====
section
/-! SUPPORT. Laws/Encoding.lean: each field of an encoded word reads back as what was put there, form by form. -/

namespace Sys2Proof

/-- A field that lies in the left part. -/
theorem extract_high {n m : Nat} (x : BitVec n) (y : BitVec m) {p k j : Nat} (h : p = m + k) :
    (x ++ y).extractLsb' p j = x.extractLsb' k j := by
  subst h
  ext i hi
  simp [BitVec.getLsbD_append, Nat.add_assoc]

/-- A field that lies in the right part. -/
theorem extract_low {n m : Nat} (x : BitVec n) (y : BitVec m) {k j : Nat} (h : k + j ≤ m) :
    (x ++ y).extractLsb' k j = y.extractLsb' k j := by
  ext i hi
  have : k + i < m := by omega
  simp [BitVec.getLsbD_append, this]

/-- A field that is everything. -/
theorem extract_all {n : Nat} (x : BitVec n) : x.extractLsb' 0 n = x := by
  ext i hi
  simp

theorem bitAt_eq (w : Word) (k : Nat) : bitAt w k = (w.extractLsb' k 1).getLsbD 0 := by
  simp [bitAt]

@[simp] theorem bit1_getLsbD (b : Bool) : (bit1 b).getLsbD 0 = b := by cases b <;> rfl

theorem extract_extract (w : Word) (a b k j : Nat) (h : k + j ≤ b) :
    (w.extractLsb' a b).extractLsb' k j = w.extractLsb' (a + k) j := by
  apply BitVec.eq_of_getLsbD_eq
  intro i hi
  simp [hi, show k + i < b by omega, Nat.add_assoc]

theorem sprOf_field (w : Word) :
    sprOf w = (w.extractLsb' 11 10).extractLsb' 0 5 ++ (w.extractLsb' 11 10).extractLsb' 5 5 := by
  rw [extract_extract _ _ _ _ _ (by omega), extract_extract _ _ _ _ _ (by omega)]
  rfl

/-- The halves of an SPR number exchange twice to what they were. -/
theorem spr_halves (n : BitVec 10) : (sprField n).extractLsb' 0 5 ++ (sprField n).extractLsb' 5 5 = n := by
  have h1 : (sprField n).extractLsb' 0 5 = n.extractLsb' 5 5 := by
    rw [sprField, extract_low _ _ (by omega), extract_all]
  have h2 : (sprField n).extractLsb' 5 5 = n.extractLsb' 0 5 := by
    rw [sprField, extract_high (k := 0) _ _ (by omega), extract_all]
  rw [h1, h2]
  apply BitVec.eq_of_getLsbD_eq
  intro i hi
  rw [BitVec.getLsbD_append]
  by_cases h : i < 5
  · simp [h]
  · have : i - 5 < 5 := by omega
    simp [h, this, show 5 + (i - 5) = i by omega]


/-! ### encD -/

@[simp] theorem encD_op (op : BitVec 6) (a b : BitVec 5) (imm : BitVec 16) :
    (encD op a b imm).extractLsb' 26 6 = op := by
  rw [encD, extract_high (k := 10) _ _ (by omega), extract_high (k := 5) _ _ (by omega), extract_high (k := 0) _ _ (by omega), extract_all]

@[simp] theorem encD_a (op : BitVec 6) (a b : BitVec 5) (imm : BitVec 16) :
    (encD op a b imm).extractLsb' 21 5 = a := by
  rw [encD, extract_high (k := 5) _ _ (by omega), extract_high (k := 0) _ _ (by omega), extract_low _ _ (by omega), extract_all]

@[simp] theorem encD_b (op : BitVec 6) (a b : BitVec 5) (imm : BitVec 16) :
    (encD op a b imm).extractLsb' 16 5 = b := by
  rw [encD, extract_high (k := 0) _ _ (by omega), extract_low _ _ (by omega), extract_all]

@[simp] theorem encD_imm (op : BitVec 6) (a b : BitVec 5) (imm : BitVec 16) :
    (encD op a b imm).extractLsb' 0 16 = imm := by
  rw [encD, extract_low _ _ (by omega), extract_all]


/-! ### encX -/

@[simp] theorem encX_op (op : BitVec 6) (a b c : BitVec 5) (xo : BitVec 10) (r : Bool) :
    (encX op a b c xo r).extractLsb' 26 6 = op := by
  rw [encX, extract_high (k := 25) _ _ (by omega), extract_high (k := 15) _ _ (by omega), extract_high (k := 10) _ _ (by omega), extract_high (k := 5) _ _ (by omega), extract_high (k := 0) _ _ (by omega), extract_all]

@[simp] theorem encX_a (op : BitVec 6) (a b c : BitVec 5) (xo : BitVec 10) (r : Bool) :
    (encX op a b c xo r).extractLsb' 21 5 = a := by
  rw [encX, extract_high (k := 20) _ _ (by omega), extract_high (k := 10) _ _ (by omega), extract_high (k := 5) _ _ (by omega), extract_high (k := 0) _ _ (by omega), extract_low _ _ (by omega), extract_all]

@[simp] theorem encX_b (op : BitVec 6) (a b c : BitVec 5) (xo : BitVec 10) (r : Bool) :
    (encX op a b c xo r).extractLsb' 16 5 = b := by
  rw [encX, extract_high (k := 15) _ _ (by omega), extract_high (k := 5) _ _ (by omega), extract_high (k := 0) _ _ (by omega), extract_low _ _ (by omega), extract_all]

@[simp] theorem encX_c (op : BitVec 6) (a b c : BitVec 5) (xo : BitVec 10) (r : Bool) :
    (encX op a b c xo r).extractLsb' 11 5 = c := by
  rw [encX, extract_high (k := 10) _ _ (by omega), extract_high (k := 0) _ _ (by omega), extract_low _ _ (by omega), extract_all]

@[simp] theorem encX_xo (op : BitVec 6) (a b c : BitVec 5) (xo : BitVec 10) (r : Bool) :
    (encX op a b c xo r).extractLsb' 1 10 = xo := by
  rw [encX, extract_high (k := 0) _ _ (by omega), extract_low _ _ (by omega), extract_all]

@[simp] theorem encX_r (op : BitVec 6) (a b c : BitVec 5) (xo : BitVec 10) (r : Bool) :
    bitAt (encX op a b c xo r) 0 = r := by
  rw [bitAt_eq, encX, extract_low _ _ (by omega), extract_all, bit1_getLsbD]


/-! ### encXFX -/

@[simp] theorem encXFX_op (op : BitVec 6) (a : BitVec 5) (spr xo : BitVec 10) (r : Bool) :
    (encXFX op a spr xo r).extractLsb' 26 6 = op := by
  rw [encXFX, extract_high (k := 25) _ _ (by omega), extract_high (k := 15) _ _ (by omega), extract_high (k := 5) _ _ (by omega), extract_high (k := 0) _ _ (by omega), extract_all]

@[simp] theorem encXFX_a (op : BitVec 6) (a : BitVec 5) (spr xo : BitVec 10) (r : Bool) :
    (encXFX op a spr xo r).extractLsb' 21 5 = a := by
  rw [encXFX, extract_high (k := 20) _ _ (by omega), extract_high (k := 10) _ _ (by omega), extract_high (k := 0) _ _ (by omega), extract_low _ _ (by omega), extract_all]

@[simp] theorem encXFX_spr (op : BitVec 6) (a : BitVec 5) (spr xo : BitVec 10) (r : Bool) :
    (encXFX op a spr xo r).extractLsb' 11 10 = spr := by
  rw [encXFX, extract_high (k := 10) _ _ (by omega), extract_high (k := 0) _ _ (by omega), extract_low _ _ (by omega), extract_all]

@[simp] theorem encXFX_xo (op : BitVec 6) (a : BitVec 5) (spr xo : BitVec 10) (r : Bool) :
    (encXFX op a spr xo r).extractLsb' 1 10 = xo := by
  rw [encXFX, extract_high (k := 0) _ _ (by omega), extract_low _ _ (by omega), extract_all]

@[simp] theorem encXFX_r (op : BitVec 6) (a : BitVec 5) (spr xo : BitVec 10) (r : Bool) :
    bitAt (encXFX op a spr xo r) 0 = r := by
  rw [bitAt_eq, encXFX, extract_low _ _ (by omega), extract_all, bit1_getLsbD]


/-! ### encXO -/

@[simp] theorem encXO_op (a b c : BitVec 5) (oe : Bool) (xo : BitVec 9) (r : Bool) :
    (encXO a b c oe xo r).extractLsb' 26 6 = 31#6 := by
  rw [encXO, extract_high (k := 25) _ _ (by omega), extract_high (k := 16) _ _ (by omega), extract_high (k := 15) _ _ (by omega), extract_high (k := 10) _ _ (by omega), extract_high (k := 5) _ _ (by omega), extract_high (k := 0) _ _ (by omega), extract_all]

@[simp] theorem encXO_a (a b c : BitVec 5) (oe : Bool) (xo : BitVec 9) (r : Bool) :
    (encXO a b c oe xo r).extractLsb' 21 5 = a := by
  rw [encXO, extract_high (k := 20) _ _ (by omega), extract_high (k := 11) _ _ (by omega), extract_high (k := 10) _ _ (by omega), extract_high (k := 5) _ _ (by omega), extract_high (k := 0) _ _ (by omega), extract_low _ _ (by omega), extract_all]

@[simp] theorem encXO_b (a b c : BitVec 5) (oe : Bool) (xo : BitVec 9) (r : Bool) :
    (encXO a b c oe xo r).extractLsb' 16 5 = b := by
  rw [encXO, extract_high (k := 15) _ _ (by omega), extract_high (k := 6) _ _ (by omega), extract_high (k := 5) _ _ (by omega), extract_high (k := 0) _ _ (by omega), extract_low _ _ (by omega), extract_all]

@[simp] theorem encXO_c (a b c : BitVec 5) (oe : Bool) (xo : BitVec 9) (r : Bool) :
    (encXO a b c oe xo r).extractLsb' 11 5 = c := by
  rw [encXO, extract_high (k := 10) _ _ (by omega), extract_high (k := 1) _ _ (by omega), extract_high (k := 0) _ _ (by omega), extract_low _ _ (by omega), extract_all]

@[simp] theorem encXO_oe (a b c : BitVec 5) (oe : Bool) (xo : BitVec 9) (r : Bool) :
    bitAt (encXO a b c oe xo r) 10 = oe := by
  rw [bitAt_eq, encXO, extract_high (k := 9) _ _ (by omega), extract_high (k := 0) _ _ (by omega), extract_low _ _ (by omega), extract_all, bit1_getLsbD]

@[simp] theorem encXO_xo (a b c : BitVec 5) (oe : Bool) (xo : BitVec 9) (r : Bool) :
    (encXO a b c oe xo r).extractLsb' 1 9 = xo := by
  rw [encXO, extract_high (k := 0) _ _ (by omega), extract_low _ _ (by omega), extract_all]

@[simp] theorem encXO_r (a b c : BitVec 5) (oe : Bool) (xo : BitVec 9) (r : Bool) :
    bitAt (encXO a b c oe xo r) 0 = r := by
  rw [bitAt_eq, encXO, extract_low _ _ (by omega), extract_all, bit1_getLsbD]


/-! ### encA -/

@[simp] theorem encA_op (op : BitVec 6) (a b c d e : BitVec 5) (r : Bool) :
    (encA op a b c d e r).extractLsb' 26 6 = op := by
  rw [encA, extract_high (k := 25) _ _ (by omega), extract_high (k := 20) _ _ (by omega), extract_high (k := 15) _ _ (by omega), extract_high (k := 10) _ _ (by omega), extract_high (k := 5) _ _ (by omega), extract_high (k := 0) _ _ (by omega), extract_all]

@[simp] theorem encA_a (op : BitVec 6) (a b c d e : BitVec 5) (r : Bool) :
    (encA op a b c d e r).extractLsb' 21 5 = a := by
  rw [encA, extract_high (k := 20) _ _ (by omega), extract_high (k := 15) _ _ (by omega), extract_high (k := 10) _ _ (by omega), extract_high (k := 5) _ _ (by omega), extract_high (k := 0) _ _ (by omega), extract_low _ _ (by omega), extract_all]

@[simp] theorem encA_b (op : BitVec 6) (a b c d e : BitVec 5) (r : Bool) :
    (encA op a b c d e r).extractLsb' 16 5 = b := by
  rw [encA, extract_high (k := 15) _ _ (by omega), extract_high (k := 10) _ _ (by omega), extract_high (k := 5) _ _ (by omega), extract_high (k := 0) _ _ (by omega), extract_low _ _ (by omega), extract_all]

@[simp] theorem encA_c (op : BitVec 6) (a b c d e : BitVec 5) (r : Bool) :
    (encA op a b c d e r).extractLsb' 11 5 = c := by
  rw [encA, extract_high (k := 10) _ _ (by omega), extract_high (k := 5) _ _ (by omega), extract_high (k := 0) _ _ (by omega), extract_low _ _ (by omega), extract_all]

@[simp] theorem encA_d (op : BitVec 6) (a b c d e : BitVec 5) (r : Bool) :
    (encA op a b c d e r).extractLsb' 6 5 = d := by
  rw [encA, extract_high (k := 5) _ _ (by omega), extract_high (k := 0) _ _ (by omega), extract_low _ _ (by omega), extract_all]

@[simp] theorem encA_e (op : BitVec 6) (a b c d e : BitVec 5) (r : Bool) :
    (encA op a b c d e r).extractLsb' 1 5 = e := by
  rw [encA, extract_high (k := 0) _ _ (by omega), extract_low _ _ (by omega), extract_all]

@[simp] theorem encA_r (op : BitVec 6) (a b c d e : BitVec 5) (r : Bool) :
    bitAt (encA op a b c d e r) 0 = r := by
  rw [bitAt_eq, encA, extract_low _ _ (by omega), extract_all, bit1_getLsbD]


/-! ### Parts of fields, and fields that take in two -/

@[simp] theorem encX_a_2_3 (op : BitVec 6) (a b c : BitVec 5) (xo : BitVec 10) (r : Bool) :
    (encX op a b c xo r).extractLsb' 23 3 = a.extractLsb' 2 3 := by
  rw [show 23 = 21 + 2 from rfl, ← extract_extract _ 21 5 _ _ (by omega), encX_a]

@[simp] theorem encD_a_2_3 (op : BitVec 6) (a b : BitVec 5) (imm : BitVec 16) :
    (encD op a b imm).extractLsb' 23 3 = a.extractLsb' 2 3 := by
  rw [show 23 = 21 + 2 from rfl, ← extract_extract _ 21 5 _ _ (by omega), encD_a]

@[simp] theorem encX_b_2_3 (op : BitVec 6) (a b c : BitVec 5) (xo : BitVec 10) (r : Bool) :
    (encX op a b c xo r).extractLsb' 18 3 = b.extractLsb' 2 3 := by
  rw [show 18 = 16 + 2 from rfl, ← extract_extract _ 16 5 _ _ (by omega), encX_b]

@[simp] theorem encX_b_0_4 (op : BitVec 6) (a b c : BitVec 5) (xo : BitVec 10) (r : Bool) :
    (encX op a b c xo r).extractLsb' 16 4 = b.extractLsb' 0 4 := by
  rw [show 16 = 16 + 0 from rfl, ← extract_extract _ 16 5 _ _ (by omega), encX_b]

@[simp] theorem encX_c_1_4 (op : BitVec 6) (a b c : BitVec 5) (xo : BitVec 10) (r : Bool) :
    (encX op a b c xo r).extractLsb' 12 4 = c.extractLsb' 1 4 := by
  rw [show 12 = 11 + 1 from rfl, ← extract_extract _ 11 5 _ _ (by omega), encX_c]

@[simp] theorem encX_xo_0_9 (op : BitVec 6) (a b c : BitVec 5) (xo : BitVec 10) (r : Bool) :
    (encX op a b c xo r).extractLsb' 1 9 = xo.extractLsb' 0 9 := by
  rw [show 1 = 1 + 0 from rfl, ← extract_extract _ 1 10 _ _ (by omega), encX_xo]

@[simp] theorem encX_xo_0_5 (op : BitVec 6) (a b c : BitVec 5) (xo : BitVec 10) (r : Bool) :
    (encX op a b c xo r).extractLsb' 1 5 = xo.extractLsb' 0 5 := by
  rw [show 1 = 1 + 0 from rfl, ← extract_extract _ 1 10 _ _ (by omega), encX_xo]

@[simp] theorem encXFX_xo_0_9 (op : BitVec 6) (a : BitVec 5) (spr xo : BitVec 10) (r : Bool) :
    (encXFX op a spr xo r).extractLsb' 1 9 = xo.extractLsb' 0 9 := by
  rw [show 1 = 1 + 0 from rfl, ← extract_extract _ 1 10 _ _ (by omega), encXFX_xo]

@[simp] theorem encXFX_spr_1_8 (op : BitVec 6) (a : BitVec 5) (spr xo : BitVec 10) (r : Bool) :
    (encXFX op a spr xo r).extractLsb' 12 8 = spr.extractLsb' 1 8 := by
  rw [show 12 = 11 + 1 from rfl, ← extract_extract _ 11 10 _ _ (by omega), encXFX_spr]

@[simp] theorem encX_bit10 (op : BitVec 6) (a b c : BitVec 5) (xo : BitVec 10) (r : Bool) : bitAt (encX op a b c xo r) 21 = a.getLsbD 0 := by
  rw [bitAt_eq, show (21 : Nat) = 21 + 0 from rfl, ← extract_extract _ 21 5 _ _ (by omega), encX_a]
  simp

@[simp] theorem encD_bit10 (op : BitVec 6) (a b : BitVec 5) (imm : BitVec 16) : bitAt (encD op a b imm) 21 = a.getLsbD 0 := by
  rw [bitAt_eq, show (21 : Nat) = 21 + 0 from rfl, ← extract_extract _ 21 5 _ _ (by omega), encD_a]
  simp

@[simp] theorem sprOf_encXFX (op : BitVec 6) (a : BitVec 5) (n xo : BitVec 10) (r : Bool) :
    sprOf (encXFX op a (sprField n) xo r) = n := by
  rw [sprOf_field, encXFX_spr, spr_halves]

@[simp] theorem primary_encD (op : BitVec 6) (a b : BitVec 5) (imm : BitVec 16) : primary (encD op a b imm) = op.toNat := by
  rw [primary, encD_op]

@[simp] theorem primary_encX (op : BitVec 6) (a b c : BitVec 5) (xo : BitVec 10) (r : Bool) : primary (encX op a b c xo r) = op.toNat := by
  rw [primary, encX_op]

@[simp] theorem primary_encXFX (op : BitVec 6) (a : BitVec 5) (spr xo : BitVec 10) (r : Bool) : primary (encXFX op a spr xo r) = op.toNat := by
  rw [primary, encXFX_op]

@[simp] theorem primary_encXO (a b c : BitVec 5) (oe : Bool) (xo : BitVec 9) (r : Bool) : primary (encXO a b c oe xo r) = 31 := by
  rw [primary, encXO_op]
  rfl

@[simp] theorem primary_encA (op : BitVec 6) (a b c d e : BitVec 5) (r : Bool) : primary (encA op a b c d e r) = op.toNat := by
  rw [primary, encA_op]

@[simp] theorem xo10_encX (op : BitVec 6) (a b c : BitVec 5) (xo : BitVec 10) (r : Bool) : xo10 (encX op a b c xo r) = xo.toNat := by
  rw [xo10, encX_xo]

@[simp] theorem xo9_encX (op : BitVec 6) (a b c : BitVec 5) (xo : BitVec 10) (r : Bool) : xo9 (encX op a b c xo r) = xo.toNat % 512 := by
  rw [xo9, encX_xo_0_9]
  simp

@[simp] theorem xo10_encXFX (op : BitVec 6) (a : BitVec 5) (spr xo : BitVec 10) (r : Bool) : xo10 (encXFX op a spr xo r) = xo.toNat := by
  rw [xo10, encXFX_xo]

@[simp] theorem xo9_encXFX (op : BitVec 6) (a : BitVec 5) (spr xo : BitVec 10) (r : Bool) : xo9 (encXFX op a spr xo r) = xo.toNat % 512 := by
  rw [xo9, encXFX_xo_0_9]
  simp

@[simp] theorem xo5_encX (op : BitVec 6) (a b c : BitVec 5) (xo : BitVec 10) (r : Bool) : xo5 (encX op a b c xo r) = xo.toNat % 32 := by
  rw [xo5, encX_xo_0_5]
  simp

@[simp] theorem xo9_encXO (a b c : BitVec 5) (oe : Bool) (xo : BitVec 9) (r : Bool) : xo9 (encXO a b c oe xo r) = xo.toNat := by
  rw [xo9, encXO_xo]

@[simp] theorem xo5_encA (op : BitVec 6) (a b c d e : BitVec 5) (r : Bool) : xo5 (encA op a b c d e r) = e.toNat := by
  rw [xo5, encA_e]

theorem crf_left (x : BitVec 3) (y : BitVec 2) : (x ++ y).extractLsb' 2 3 = x := by
  rw [extract_high (k := 0) _ _ (by omega), extract_all]

end Sys2Proof
end

