-- ==== Sys2Proof/Laws/Float.lean ====
section
/-! SUPPORT. Laws/Float.lean: the summary bits of FPSCR (41_float.md R428). -/

namespace Sys2Proof.Machine

/-- A write of one bit outside a mask is not seen through it. -/
theorem setBeBit_and (w m : Word) (i : Nat) (b : Bool) (h : beMask i &&& m = 0) : setBeBit w i b &&& m = w &&& m := by
  cases b
  · have n : ~~~(beMask i) &&& m = m := by
      calc ~~~(beMask i) &&& m = (~~~(beMask i) &&& m) ||| (beMask i &&& m) := by rw [h]; exact BitVec.or_zero.symm
        _ = m := by
          rw [← BitVec.and_or_distrib_right, BitVec.not_or_self, BitVec.allOnes_and]
    rw [setBeBit, if_neg (by decide), BitVec.and_assoc, n]
  · rw [setBeBit, if_pos rfl, BitVec.and_or_distrib_right, h]
    exact BitVec.or_zero

/-- What the summary writes: VX, FEX, no other bit. -/
theorem beBit_fpSummary (w : Word) (k : Nat) (h1 : k ≠ 1) (h2 : k ≠ 2) : beBit (fpSummary w) k = beBit w k := by
  rw [fpSummary, beBit_setBeBit _ (by omega), if_neg h1, beBit_setBeBit _ (by omega), if_neg h2]

/-- The summary bits are the summaries. -/
theorem fpSummarized_fpSummary (w : Word) : fpSummarized (fpSummary w) := by
  have m : fpSummary w &&& 0x01F80700 = w &&& 0x01F80700 := by
    rw [fpSummary, setBeBit_and _ _ _ _ (by decide), setBeBit_and _ _ _ _ (by decide)]
  have b2 : beBit (fpSummary w) 2 = (w &&& 0x01F80700 != 0) := by
    rw [fpSummary, beBit_setBeBit _ (by omega), if_neg (by omega), beBit_setBeBit _ (by omega), if_pos rfl]
  refine ⟨by rw [b2, m], ?_⟩
  simp only [b2, beBit_fpSummary w _ (show 3 ≠ 1 by omega) (by omega), beBit_fpSummary w _ (show 4 ≠ 1 by omega) (by omega),
    beBit_fpSummary w _ (show 5 ≠ 1 by omega) (by omega), beBit_fpSummary w _ (show 6 ≠ 1 by omega) (by omega),
    beBit_fpSummary w _ (show 24 ≠ 1 by omega) (by omega), beBit_fpSummary w _ (show 25 ≠ 1 by omega) (by omega),
    beBit_fpSummary w _ (show 26 ≠ 1 by omega) (by omega), beBit_fpSummary w _ (show 27 ≠ 1 by omega) (by omega),
    beBit_fpSummary w _ (show 28 ≠ 1 by omega) (by omega)]
  rw [fpSummary, beBit_setBeBit _ (by omega), if_pos rfl]

/-- So they are after any instruction that settles the FPSCR. -/
theorem fpSummarized_fpSettle (old new : Word) : fpSummarized (fpSettle old new) := fpSummarized_fpSummary _

/-- `putFpscr` and the like leave a state whose summaries hold, and whose other registers are as before (R429). -/
theorem fpDone_quiet {s : State} (h : s.fpQuiet) (rc : Bool) :
    s.fpDone rc = .next { s with
      cr := if rc then setField4 s.cr 1 (getField4 s.fpscr 0) else s.cr
      pc := s.pc + 4 } := by
  have f : s.msrFE = false := by
    unfold State.msrFE
    rw [h.2.1, h.2.2]
    rfl
  have g (b : Bool) : (s.recordFpIf b).msrFE = false := by cases b <;> exact f
  rw [State.fpDone, g rc]
  cases rc <;> rfl

end Sys2Proof.Machine
end

