-- ==== Sys2Proof/Laws/Integer.lean ====
section
/-! SUPPORT. Laws/Integer.lean: what the shared operations of the integer instructions do: writing a result, an
addition with its flags, a comparison. -/

namespace Sys2Proof.Machine

/-! ### Registers -/

/-- A write of one GPR leaves the others. -/
theorem State.gprsBut_writeGpr (s : State) (r : Reg) (v : Word) : s.gprsBut (s.writeGpr r v) [r] := fun q hq =>
  s.readGpr_writeGpr_other r q v (by simpa using hq)

/-! ### XER and CR -/

/-- XER after a write of CA (R321). -/
theorem xer_setCa (s : State) (b : Bool) (k : Nat) : beBit (s.setCa b).xer k = if k = 2 then b else beBit s.xer k :=
  beBit_setBeBit _ (by omega) _ _

/-- XER after a write of OV (R321). -/
theorem xer_overflowIf (s : State) (oe ov : Bool) (k : Nat) :
    beBit (s.overflowIf oe ov).xer k =
      if k = 0 then beBit s.xer 0 || (oe && ov) else if k = 1 ∧ oe = true then ov else beBit s.xer k := by
  cases oe
  · simp [State.overflowIf]
    intro h
    rw [h]
  · simp only [State.overflowIf, if_true, State.setOv, State.xerSO]
    rw [beBit_setBeBit _ (by omega), beBit_setBeBit _ (by omega)]
    simp

/-- CR after a record (R321): the signs of the result and SO in CR0, the other fields as they were. -/
theorem recorded_recordIf {s u : State} (rc : Bool) (v : Word) (h : u.cr = s.cr) :
    s.recorded (u.recordIf rc v).advance rc v := by
  cases rc
  · simp [State.recorded, State.recordIf, h]
  · have c := crBits_getMsbD (v.slt 0) ((0 : Word).slt v) (v == 0) u.xerSO
    have b (k : Nat) : beBit (u.recordIf true v).advance.cr k =
        if k / 4 = 0 then (cmp0 v u.xerSO).getMsbD (k % 4) else beBit u.cr k := beBit_setField4 _ (by omega) _ _
    refine ⟨fun k hk => ?_, ?_⟩
    · rw [b, if_neg (by omega), h]
    · rw [if_pos rfl]
      refine ⟨?_, ?_, ?_, ?_⟩
      · rw [b, if_pos rfl, cmp0, c.1]
        simp [BitVec.slt]
      · rw [b, if_pos rfl, cmp0, c.2.1]
        simp [BitVec.slt]
      · rw [b, if_pos rfl, cmp0, c.2.2.1, Bool.eq_iff_iff]
        simp [← BitVec.toInt_inj]
      · rw [b, if_pos rfl, cmp0, c.2.2.2]
        rfl

/-! ### Results -/

/-- `putResult` from a state that may differ from `s` in XER: the result, the record, nothing else. -/
theorem putResult_spec {s u : State} (hu : u = { s with xer := u.xer }) (r : Reg) (v : Word) (rc : Bool) :
    ∃ t, u.putResult r v rc = .next t ∧ s.integerDone t r v ∧ t.xer = u.xer ∧ s.recorded t rc v := by
  have hc : u.cr = s.cr := by rw [hu]
  have hg : ∀ q, u.readGpr q = s.readGpr q := by
    intro q
    rw [hu]
    rfl
  refine ⟨_, rfl, ⟨?_, ?_, fun q hq => ?_⟩, ?_, ?_⟩
  · rw [hu]
    cases rc <;> rfl
  · cases rc <;> exact State.readGpr_writeGpr_same u r v
  · have := (u.gprsBut_writeGpr r v) q hq
    cases rc <;> exact this.trans (hg q)
  · cases rc <;> rfl
  · exact recorded_recordIf (u := u.writeGpr r v) rc v hc

/-- The low word of the 33-bit sum. -/
theorem sum33_low (a b : Word) (c : Bool) :
    (sum33 a b c).setWidth 32 = BitVec.ofNat 32 (a.toNat + b.toNat + c.toNat) := by
  apply BitVec.eq_of_toNat_eq
  cases c <;> simp [sum33, bit1]

/-- The carry out of 32 bits. -/
theorem sum33_carry (a b : Word) (c : Bool) :
    (sum33 a b c).getMsbD 0 = decide (4294967296 ≤ a.toNat + b.toNat + c.toNat) := by
  have := a.isLt
  have := b.isLt
  have e : (sum33 a b c).toNat = a.toNat + b.toNat + c.toNat := by
    cases c <;> simp [sum33, bit1, Nat.mod_eq_of_lt] <;> omega
  have m : (sum33 a b c).getMsbD 0 = (sum33 a b c).msb := rfl
  rw [m, BitVec.msb_eq_decide, e]

/-- The overflow of an addition: the exact signed sum is no signed word. -/
theorem addOverflow_eq (a b : Word) (c : Bool) :
    addOverflow a b ((sum33 a b c).setWidth 32) = outOfWord (a.toInt + b.toInt + c.toNat) := by
  rw [sum33_low]
  have s (w : Word) : beBit w 0 = decide (w.toInt < 0) := by
    have : beBit w 0 = w.msb := rfl
    rw [this, BitVec.msb_eq_toInt]
  have ha := a.toInt_eq_toNat_cond
  have hb := b.toInt_eq_toNat_cond
  have hr := (BitVec.ofNat 32 (a.toNat + b.toNat + c.toNat)).toInt_eq_toNat_cond
  rw [BitVec.toNat_ofNat] at hr
  have := a.isLt
  have := b.isLt
  have := c.toNat_le
  simp only [addOverflow, outOfWord, s]
  rw [Bool.eq_iff_iff]
  simp only [Bool.and_eq_true, beq_iff_eq, bne_iff_ne, ne_eq, decide_eq_decide, Bool.or_eq_true, decide_eq_true_eq]
  generalize a.toInt = x at *
  generalize b.toInt = y at *
  generalize (BitVec.ofNat 32 (a.toNat + b.toNat + c.toNat)).toInt = z at *
  generalize a.toNat = m at *
  generalize b.toNat = n at *
  generalize c.toNat = k at *
  have hz : z = if 2 * ((m + n + k) % 2 ^ 32) < 2 ^ 32 then (((m + n + k) % 2 ^ 32 : Nat) : Int)
      else (((m + n + k) % 2 ^ 32 : Nat) : Int) - 2 ^ 32 := by exact_mod_cast hr
  norm_num at *
  split at ha <;> split at hb <;> split at hz <;> omega

/-- `putSum`: the sum with its carry, overflow and record, nothing else (R321). -/
theorem putSum_spec (s : State) (rD : Reg) (a b : Word) (c carries oe rc : Bool) :
    ∃ t, s.putSum rD a b c carries oe rc = .next t ∧ s.summed t rD a b c carries oe rc := by
  have hu (ov : Bool) : (if carries then s.setCa ((sum33 a b c).getMsbD 0) else s).overflowIf oe ov =
      { s with xer := ((if carries then s.setCa ((sum33 a b c).getMsbD 0) else s).overflowIf oe ov).xer } := by
    cases carries <;> cases oe <;> rfl
  obtain ⟨t, h, h1, h2, h3⟩ := putResult_spec (hu (addOverflow a b ((sum33 a b c).setWidth 32))) rD
    ((sum33 a b c).setWidth 32) rc
  have x (k : Nat) : beBit (if carries then s.setCa ((sum33 a b c).getMsbD 0) else s).xer k =
      if k = 2 ∧ carries = true then (sum33 a b c).getMsbD 0 else beBit s.xer k := by
    cases carries
    · simp
    · simpa using xer_setCa s ((sum33 a b c).getMsbD 0) k
  refine ⟨t, h, ?_, fun k hk => ?_, ?_, ?_, ?_⟩
  · rwa [← sum33_low]
  · rw [h2, xer_overflowIf, x k, if_neg (by omega), if_neg (by omega), if_neg (by omega)]
  · rw [h2, xer_overflowIf, x 2, ← sum33_carry]
    simp
  · rw [State.overflowed, h2, xer_overflowIf, xer_overflowIf, x 0, x 1, ← addOverflow_eq]
    cases oe <;> simp
  · rwa [← sum33_low]

/-- `putCompare`: one CR field, nothing else (R350). -/
theorem putCompare_spec (s : State) (n : BitVec 3) (lt gt eq so : Bool) :
    ∃ t, s.putCompare n (crBits lt gt eq so) = .next t ∧ t = { s with cr := t.cr, pc := s.pc + 4 } ∧
      s.crFieldIs t n lt gt eq so := by
  have b (k : Nat) : beBit (s.setCrField n.toNat (crBits lt gt eq so)).advance.cr k =
      if k / 4 = n.toNat then (crBits lt gt eq so).getMsbD (k % 4) else beBit s.cr k :=
    beBit_setField4 _ n.isLt _ _
  have c := crBits_getMsbD lt gt eq so
  refine ⟨_, rfl, rfl, ?_, ?_, ?_, ?_, fun k hk => ?_⟩
  · rw [b, if_pos (by omega), Nat.mul_mod_right, c.1]
  · rw [b, if_pos (by omega), Nat.mul_add_mod, c.2.1]
  · rw [b, if_pos (by omega), Nat.mul_add_mod, c.2.2.1]
  · rw [b, if_pos (by omega), Nat.mul_add_mod, c.2.2.2]
  · rw [b, if_neg hk]

/-- `putCrBit`: one CR bit, nothing else (R630). -/
theorem putCrBit_spec (s : State) (d : BitVec 5) (v : Bool) :
    ∃ t, s.putCrBit d v = .next t ∧ t = { s with cr := t.cr, pc := s.pc + 4 } ∧ beBit t.cr d.toNat = v ∧
      ∀ k, k ≠ d.toNat → beBit t.cr k = beBit s.cr k := by
  have b (k : Nat) : beBit (setBeBit s.cr d.toNat v) k = if k = d.toNat then v else beBit s.cr k :=
    beBit_setBeBit _ d.isLt _ _
  exact ⟨_, rfl, rfl, (b _).trans (if_pos rfl), fun k hk => (b k).trans (if_neg hk)⟩

end Sys2Proof.Machine
end

