-- ==== Sys2Proof/Laws/PerInstr.lean ====
section
/-! SUPPORT. Laws/PerInstr.lean: a statement about every instruction as syntax, one lemma a constructor: its word has
the primary opcode of the opcode table (30_encoding.md R260). -/

namespace Sys2Proof

/-- The primary opcode of an instruction, bits 0:5 of its word in the opcode table. -/
def opcodeOf : Instr → Nat
  | .addi _ _ _ => 14
  | .addis _ _ _ => 15
  | .addic _ _ _ => 12
  | .addicRec _ _ _ => 13
  | .subfic _ _ _ => 8
  | .mulli _ _ _ => 7
  | .add _ _ _ _ _ => 31
  | .subf _ _ _ _ _ => 31
  | .addc _ _ _ _ _ => 31
  | .subfc _ _ _ _ _ => 31
  | .adde _ _ _ _ _ => 31
  | .subfe _ _ _ _ _ => 31
  | .addme _ _ _ _ => 31
  | .subfme _ _ _ _ => 31
  | .addze _ _ _ _ => 31
  | .subfze _ _ _ _ => 31
  | .neg _ _ _ _ => 31
  | .mullw _ _ _ _ _ => 31
  | .mulhw _ _ _ _ => 31
  | .mulhwu _ _ _ _ => 31
  | .divw _ _ _ _ _ => 31
  | .divwu _ _ _ _ _ => 31
  | .cmpi _ _ _ _ => 11
  | .cmp _ _ _ _ => 31
  | .cmpli _ _ _ _ => 10
  | .cmpl _ _ _ _ => 31
  | .andiRec _ _ _ => 28
  | .andisRec _ _ _ => 29
  | .ori _ _ _ => 24
  | .oris _ _ _ => 25
  | .xori _ _ _ => 26
  | .xoris _ _ _ => 27
  | .and _ _ _ _ => 31
  | .or _ _ _ _ => 31
  | .xor _ _ _ _ => 31
  | .nand _ _ _ _ => 31
  | .nor _ _ _ _ => 31
  | .eqv _ _ _ _ => 31
  | .andc _ _ _ _ => 31
  | .orc _ _ _ _ => 31
  | .extsb _ _ _ => 31
  | .extsh _ _ _ => 31
  | .cntlzw _ _ _ => 31
  | .rlwinm _ _ _ _ _ _ => 21
  | .rlwnm _ _ _ _ _ _ => 23
  | .rlwimi _ _ _ _ _ _ => 20
  | .slw _ _ _ _ => 31
  | .srw _ _ _ _ => 31
  | .srawi _ _ _ _ => 31
  | .sraw _ _ _ _ => 31
  | .fadd _ _ _ _ => 63
  | .fadds _ _ _ _ => 59
  | .fsub _ _ _ _ => 63
  | .fsubs _ _ _ _ => 59
  | .fmul _ _ _ _ => 63
  | .fmuls _ _ _ _ => 59
  | .fdiv _ _ _ _ => 63
  | .fdivs _ _ _ _ => 59
  | .fres _ _ _ => 59
  | .frsqrte _ _ _ => 63
  | .fsel _ _ _ _ _ => 63
  | .fmadd _ _ _ _ _ => 63
  | .fmadds _ _ _ _ _ => 59
  | .fmsub _ _ _ _ _ => 63
  | .fmsubs _ _ _ _ _ => 59
  | .fnmadd _ _ _ _ _ => 63
  | .fnmadds _ _ _ _ _ => 59
  | .fnmsub _ _ _ _ _ => 63
  | .fnmsubs _ _ _ _ _ => 59
  | .frsp _ _ _ => 63
  | .fctiw _ _ _ => 63
  | .fctiwz _ _ _ => 63
  | .fcmpu _ _ _ _ => 63
  | .fcmpo _ _ _ _ => 63
  | .mffs _ _ => 63
  | .mcrfs _ _ => 63
  | .mtfsfi _ _ _ => 63
  | .mtfsf _ _ _ => 63
  | .mtfsb0 _ _ => 63
  | .mtfsb1 _ _ => 63
  | .fmr _ _ _ => 63
  | .fneg _ _ _ => 63
  | .fabs _ _ _ => 63
  | .fnabs _ _ _ => 63
  | .lbz _ _ _ => 34
  | .lbzx _ _ _ _ => 31
  | .lbzu _ _ _ => 35
  | .lbzux _ _ _ _ => 31
  | .lhz _ _ _ => 40
  | .lhzx _ _ _ _ => 31
  | .lhzu _ _ _ => 41
  | .lhzux _ _ _ _ => 31
  | .lha _ _ _ => 42
  | .lhax _ _ _ _ => 31
  | .lhau _ _ _ => 43
  | .lhaux _ _ _ _ => 31
  | .lwz _ _ _ => 32
  | .lwzx _ _ _ _ => 31
  | .lwzu _ _ _ => 33
  | .lwzux _ _ _ _ => 31
  | .stb _ _ _ => 38
  | .stbx _ _ _ _ => 31
  | .stbu _ _ _ => 39
  | .stbux _ _ _ _ => 31
  | .sth _ _ _ => 44
  | .sthx _ _ _ _ => 31
  | .sthu _ _ _ => 45
  | .sthux _ _ _ _ => 31
  | .stw _ _ _ => 36
  | .stwx _ _ _ _ => 31
  | .stwu _ _ _ => 37
  | .stwux _ _ _ _ => 31
  | .lhbrx _ _ _ _ => 31
  | .lwbrx _ _ _ _ => 31
  | .sthbrx _ _ _ _ => 31
  | .stwbrx _ _ _ _ => 31
  | .lmw _ _ _ => 46
  | .stmw _ _ _ => 47
  | .lswi _ _ _ _ => 31
  | .lswx _ _ _ _ => 31
  | .stswi _ _ _ _ => 31
  | .stswx _ _ _ _ => 31
  | .lfs _ _ _ => 48
  | .lfsx _ _ _ _ => 31
  | .lfsu _ _ _ => 49
  | .lfsux _ _ _ _ => 31
  | .lfd _ _ _ => 50
  | .lfdx _ _ _ _ => 31
  | .lfdu _ _ _ => 51
  | .lfdux _ _ _ _ => 31
  | .stfs _ _ _ => 52
  | .stfsx _ _ _ _ => 31
  | .stfsu _ _ _ => 53
  | .stfsux _ _ _ _ => 31
  | .stfd _ _ _ => 54
  | .stfdx _ _ _ _ => 31
  | .stfdu _ _ _ => 55
  | .stfdux _ _ _ _ => 31
  | .stfiwx _ _ _ _ => 31
  | .b _ _ _ => 18
  | .bc _ _ _ _ _ => 16
  | .bclr _ _ _ => 19
  | .bcctr _ _ _ => 19
  | .crand _ _ _ => 19
  | .cror _ _ _ => 19
  | .crxor _ _ _ => 19
  | .crnand _ _ _ => 19
  | .crnor _ _ _ => 19
  | .creqv _ _ _ => 19
  | .crandc _ _ _ => 19
  | .crorc _ _ _ => 19
  | .mcrf _ _ => 19
  | .twi _ _ _ => 3
  | .tw _ _ _ => 31
  | .sc => 17
  | .rfi => 19
  | .mtmsr _ => 31
  | .mfmsr _ => 31
  | .mtcrf _ _ => 31
  | .mcrxr _ => 31
  | .mfcr _ => 31
  | .mtspr _ _ _ => 31
  | .mfspr _ _ _ => 31
  | .mftb _ _ => 31
  | .lwarx _ _ _ _ => 31
  | .stwcxRec _ _ _ _ => 31
  | .sync _ => 31
  | .eieio => 31
  | .isync => 19
  | .dcbt _ _ => 31
  | .dcbtst _ _ => 31
  | .dcbz _ _ => 31
  | .dcbst _ _ => 31
  | .dcbf _ _ => 31
  | .icbi _ _ => 31
  | .dcbi _ _ => 31
  | .eciwx _ _ _ => 31
  | .ecowx _ _ _ => 31
  | .mtsr _ _ => 31
  | .mtsrin _ _ => 31
  | .mfsr _ _ => 31
  | .mfsrin _ _ => 31
  | .tlbie _ => 31
  | .tlbsync => 31

/-- The encoder writes the primary opcode of the table. -/
def Laws.Opcode.Statement (i : Instr) : Prop := primary (encode i) = opcodeOf i

/-- The first field of the word of an unconditional branch. -/
theorem primary_b (li : BitVec 24) (aa lk : Bool) : primary (18#6 ++ li ++ bit1 aa ++ bit1 lk) = 18 := by
  rw [primary, extract_high (k := 25) _ _ (by omega), extract_high (k := 24) _ _ (by omega),
    extract_high (k := 0) _ _ (by omega), extract_all]
  rfl

/-- The first field of the word of `mtfsf`. -/
theorem primary_mtfsf (fm : BitVec 8) (frB : BitVec 5) (rc : Bool) :
    primary (63#6 ++ 0#1 ++ fm ++ 0#1 ++ frB ++ 711#10 ++ bit1 rc) = 63 := by
  rw [primary, extract_high (k := 25) _ _ (by omega), extract_high (k := 15) _ _ (by omega),
    extract_high (k := 10) _ _ (by omega), extract_high (k := 9) _ _ (by omega), extract_high (k := 1) _ _ (by omega),
    extract_high (k := 0) _ _ (by omega), extract_all]
  rfl

/-- The first field of the word of a conditional branch. -/
theorem primary_bc (bo bi : BitVec 5) (bd : BitVec 14) (aa lk : Bool) :
    primary (16#6 ++ bo ++ bi ++ bd ++ bit1 aa ++ bit1 lk) = 16 := by
  rw [primary, extract_high (k := 25) _ _ (by omega), extract_high (k := 24) _ _ (by omega),
    extract_high (k := 10) _ _ (by omega), extract_high (k := 5) _ _ (by omega), extract_high (k := 0) _ _ (by omega),
    extract_all]
  rfl

theorem Laws.Opcode.addi (rD : BitVec 5) (rA : BitVec 5) (simm : BitVec 16) :
    Laws.Opcode.Statement (.addi rD rA simm) := primary_encD ..

theorem Laws.Opcode.addis (rD : BitVec 5) (rA : BitVec 5) (simm : BitVec 16) :
    Laws.Opcode.Statement (.addis rD rA simm) := primary_encD ..

theorem Laws.Opcode.addic (rD : BitVec 5) (rA : BitVec 5) (simm : BitVec 16) :
    Laws.Opcode.Statement (.addic rD rA simm) := primary_encD ..

theorem Laws.Opcode.addicRec (rD : BitVec 5) (rA : BitVec 5) (simm : BitVec 16) :
    Laws.Opcode.Statement (.addicRec rD rA simm) := primary_encD ..

theorem Laws.Opcode.subfic (rD : BitVec 5) (rA : BitVec 5) (simm : BitVec 16) :
    Laws.Opcode.Statement (.subfic rD rA simm) := primary_encD ..

theorem Laws.Opcode.mulli (rD : BitVec 5) (rA : BitVec 5) (simm : BitVec 16) :
    Laws.Opcode.Statement (.mulli rD rA simm) := primary_encD ..

theorem Laws.Opcode.add (rD : BitVec 5) (rA : BitVec 5) (rB : BitVec 5) (oe : Bool) (rc : Bool) :
    Laws.Opcode.Statement (.add rD rA rB oe rc) := primary_encXO ..

theorem Laws.Opcode.subf (rD : BitVec 5) (rA : BitVec 5) (rB : BitVec 5) (oe : Bool) (rc : Bool) :
    Laws.Opcode.Statement (.subf rD rA rB oe rc) := primary_encXO ..

theorem Laws.Opcode.addc (rD : BitVec 5) (rA : BitVec 5) (rB : BitVec 5) (oe : Bool) (rc : Bool) :
    Laws.Opcode.Statement (.addc rD rA rB oe rc) := primary_encXO ..

theorem Laws.Opcode.subfc (rD : BitVec 5) (rA : BitVec 5) (rB : BitVec 5) (oe : Bool) (rc : Bool) :
    Laws.Opcode.Statement (.subfc rD rA rB oe rc) := primary_encXO ..

theorem Laws.Opcode.adde (rD : BitVec 5) (rA : BitVec 5) (rB : BitVec 5) (oe : Bool) (rc : Bool) :
    Laws.Opcode.Statement (.adde rD rA rB oe rc) := primary_encXO ..

theorem Laws.Opcode.subfe (rD : BitVec 5) (rA : BitVec 5) (rB : BitVec 5) (oe : Bool) (rc : Bool) :
    Laws.Opcode.Statement (.subfe rD rA rB oe rc) := primary_encXO ..

theorem Laws.Opcode.addme (rD : BitVec 5) (rA : BitVec 5) (oe : Bool) (rc : Bool) :
    Laws.Opcode.Statement (.addme rD rA oe rc) := primary_encXO ..

theorem Laws.Opcode.subfme (rD : BitVec 5) (rA : BitVec 5) (oe : Bool) (rc : Bool) :
    Laws.Opcode.Statement (.subfme rD rA oe rc) := primary_encXO ..

theorem Laws.Opcode.addze (rD : BitVec 5) (rA : BitVec 5) (oe : Bool) (rc : Bool) :
    Laws.Opcode.Statement (.addze rD rA oe rc) := primary_encXO ..

theorem Laws.Opcode.subfze (rD : BitVec 5) (rA : BitVec 5) (oe : Bool) (rc : Bool) :
    Laws.Opcode.Statement (.subfze rD rA oe rc) := primary_encXO ..

theorem Laws.Opcode.neg (rD : BitVec 5) (rA : BitVec 5) (oe : Bool) (rc : Bool) :
    Laws.Opcode.Statement (.neg rD rA oe rc) := primary_encXO ..

theorem Laws.Opcode.mullw (rD : BitVec 5) (rA : BitVec 5) (rB : BitVec 5) (oe : Bool) (rc : Bool) :
    Laws.Opcode.Statement (.mullw rD rA rB oe rc) := primary_encXO ..

theorem Laws.Opcode.mulhw (rD : BitVec 5) (rA : BitVec 5) (rB : BitVec 5) (rc : Bool) :
    Laws.Opcode.Statement (.mulhw rD rA rB rc) := primary_encXO ..

theorem Laws.Opcode.mulhwu (rD : BitVec 5) (rA : BitVec 5) (rB : BitVec 5) (rc : Bool) :
    Laws.Opcode.Statement (.mulhwu rD rA rB rc) := primary_encXO ..

theorem Laws.Opcode.divw (rD : BitVec 5) (rA : BitVec 5) (rB : BitVec 5) (oe : Bool) (rc : Bool) :
    Laws.Opcode.Statement (.divw rD rA rB oe rc) := primary_encXO ..

theorem Laws.Opcode.divwu (rD : BitVec 5) (rA : BitVec 5) (rB : BitVec 5) (oe : Bool) (rc : Bool) :
    Laws.Opcode.Statement (.divwu rD rA rB oe rc) := primary_encXO ..

theorem Laws.Opcode.cmpi (crfD : BitVec 3) (l : Bool) (rA : BitVec 5) (simm : BitVec 16) :
    Laws.Opcode.Statement (.cmpi crfD l rA simm) := primary_encD ..

theorem Laws.Opcode.cmp (crfD : BitVec 3) (l : Bool) (rA : BitVec 5) (rB : BitVec 5) :
    Laws.Opcode.Statement (.cmp crfD l rA rB) := primary_encX ..

theorem Laws.Opcode.cmpli (crfD : BitVec 3) (l : Bool) (rA : BitVec 5) (uimm : BitVec 16) :
    Laws.Opcode.Statement (.cmpli crfD l rA uimm) := primary_encD ..

theorem Laws.Opcode.cmpl (crfD : BitVec 3) (l : Bool) (rA : BitVec 5) (rB : BitVec 5) :
    Laws.Opcode.Statement (.cmpl crfD l rA rB) := primary_encX ..

theorem Laws.Opcode.andiRec (rS : BitVec 5) (rA : BitVec 5) (uimm : BitVec 16) :
    Laws.Opcode.Statement (.andiRec rS rA uimm) := primary_encD ..

theorem Laws.Opcode.andisRec (rS : BitVec 5) (rA : BitVec 5) (uimm : BitVec 16) :
    Laws.Opcode.Statement (.andisRec rS rA uimm) := primary_encD ..

theorem Laws.Opcode.ori (rS : BitVec 5) (rA : BitVec 5) (uimm : BitVec 16) :
    Laws.Opcode.Statement (.ori rS rA uimm) := primary_encD ..

theorem Laws.Opcode.oris (rS : BitVec 5) (rA : BitVec 5) (uimm : BitVec 16) :
    Laws.Opcode.Statement (.oris rS rA uimm) := primary_encD ..

theorem Laws.Opcode.xori (rS : BitVec 5) (rA : BitVec 5) (uimm : BitVec 16) :
    Laws.Opcode.Statement (.xori rS rA uimm) := primary_encD ..

theorem Laws.Opcode.xoris (rS : BitVec 5) (rA : BitVec 5) (uimm : BitVec 16) :
    Laws.Opcode.Statement (.xoris rS rA uimm) := primary_encD ..

theorem Laws.Opcode.and (rS : BitVec 5) (rA : BitVec 5) (rB : BitVec 5) (rc : Bool) :
    Laws.Opcode.Statement (.and rS rA rB rc) := primary_encX ..

theorem Laws.Opcode.or (rS : BitVec 5) (rA : BitVec 5) (rB : BitVec 5) (rc : Bool) :
    Laws.Opcode.Statement (.or rS rA rB rc) := primary_encX ..

theorem Laws.Opcode.xor (rS : BitVec 5) (rA : BitVec 5) (rB : BitVec 5) (rc : Bool) :
    Laws.Opcode.Statement (.xor rS rA rB rc) := primary_encX ..

theorem Laws.Opcode.nand (rS : BitVec 5) (rA : BitVec 5) (rB : BitVec 5) (rc : Bool) :
    Laws.Opcode.Statement (.nand rS rA rB rc) := primary_encX ..

theorem Laws.Opcode.nor (rS : BitVec 5) (rA : BitVec 5) (rB : BitVec 5) (rc : Bool) :
    Laws.Opcode.Statement (.nor rS rA rB rc) := primary_encX ..

theorem Laws.Opcode.eqv (rS : BitVec 5) (rA : BitVec 5) (rB : BitVec 5) (rc : Bool) :
    Laws.Opcode.Statement (.eqv rS rA rB rc) := primary_encX ..

theorem Laws.Opcode.andc (rS : BitVec 5) (rA : BitVec 5) (rB : BitVec 5) (rc : Bool) :
    Laws.Opcode.Statement (.andc rS rA rB rc) := primary_encX ..

theorem Laws.Opcode.orc (rS : BitVec 5) (rA : BitVec 5) (rB : BitVec 5) (rc : Bool) :
    Laws.Opcode.Statement (.orc rS rA rB rc) := primary_encX ..

theorem Laws.Opcode.extsb (rS : BitVec 5) (rA : BitVec 5) (rc : Bool) :
    Laws.Opcode.Statement (.extsb rS rA rc) := primary_encX ..

theorem Laws.Opcode.extsh (rS : BitVec 5) (rA : BitVec 5) (rc : Bool) :
    Laws.Opcode.Statement (.extsh rS rA rc) := primary_encX ..

theorem Laws.Opcode.cntlzw (rS : BitVec 5) (rA : BitVec 5) (rc : Bool) :
    Laws.Opcode.Statement (.cntlzw rS rA rc) := primary_encX ..

theorem Laws.Opcode.rlwinm (rS : BitVec 5) (rA : BitVec 5) (sh : BitVec 5) (mb : BitVec 5) (me : BitVec 5) (rc : Bool) :
    Laws.Opcode.Statement (.rlwinm rS rA sh mb me rc) := primary_encA ..

theorem Laws.Opcode.rlwnm (rS : BitVec 5) (rA : BitVec 5) (rB : BitVec 5) (mb : BitVec 5) (me : BitVec 5) (rc : Bool) :
    Laws.Opcode.Statement (.rlwnm rS rA rB mb me rc) := primary_encA ..

theorem Laws.Opcode.rlwimi (rS : BitVec 5) (rA : BitVec 5) (sh : BitVec 5) (mb : BitVec 5) (me : BitVec 5) (rc : Bool) :
    Laws.Opcode.Statement (.rlwimi rS rA sh mb me rc) := primary_encA ..

theorem Laws.Opcode.slw (rS : BitVec 5) (rA : BitVec 5) (rB : BitVec 5) (rc : Bool) :
    Laws.Opcode.Statement (.slw rS rA rB rc) := primary_encX ..

theorem Laws.Opcode.srw (rS : BitVec 5) (rA : BitVec 5) (rB : BitVec 5) (rc : Bool) :
    Laws.Opcode.Statement (.srw rS rA rB rc) := primary_encX ..

theorem Laws.Opcode.srawi (rS : BitVec 5) (rA : BitVec 5) (sh : BitVec 5) (rc : Bool) :
    Laws.Opcode.Statement (.srawi rS rA sh rc) := primary_encX ..

theorem Laws.Opcode.sraw (rS : BitVec 5) (rA : BitVec 5) (rB : BitVec 5) (rc : Bool) :
    Laws.Opcode.Statement (.sraw rS rA rB rc) := primary_encX ..

theorem Laws.Opcode.fadd (frD : BitVec 5) (frA : BitVec 5) (frB : BitVec 5) (rc : Bool) :
    Laws.Opcode.Statement (.fadd frD frA frB rc) := primary_encA ..

theorem Laws.Opcode.fadds (frD : BitVec 5) (frA : BitVec 5) (frB : BitVec 5) (rc : Bool) :
    Laws.Opcode.Statement (.fadds frD frA frB rc) := primary_encA ..

theorem Laws.Opcode.fsub (frD : BitVec 5) (frA : BitVec 5) (frB : BitVec 5) (rc : Bool) :
    Laws.Opcode.Statement (.fsub frD frA frB rc) := primary_encA ..

theorem Laws.Opcode.fsubs (frD : BitVec 5) (frA : BitVec 5) (frB : BitVec 5) (rc : Bool) :
    Laws.Opcode.Statement (.fsubs frD frA frB rc) := primary_encA ..

theorem Laws.Opcode.fmul (frD : BitVec 5) (frA : BitVec 5) (frC : BitVec 5) (rc : Bool) :
    Laws.Opcode.Statement (.fmul frD frA frC rc) := primary_encA ..

theorem Laws.Opcode.fmuls (frD : BitVec 5) (frA : BitVec 5) (frC : BitVec 5) (rc : Bool) :
    Laws.Opcode.Statement (.fmuls frD frA frC rc) := primary_encA ..

theorem Laws.Opcode.fdiv (frD : BitVec 5) (frA : BitVec 5) (frB : BitVec 5) (rc : Bool) :
    Laws.Opcode.Statement (.fdiv frD frA frB rc) := primary_encA ..

theorem Laws.Opcode.fdivs (frD : BitVec 5) (frA : BitVec 5) (frB : BitVec 5) (rc : Bool) :
    Laws.Opcode.Statement (.fdivs frD frA frB rc) := primary_encA ..

theorem Laws.Opcode.fres (frD : BitVec 5) (frB : BitVec 5) (rc : Bool) :
    Laws.Opcode.Statement (.fres frD frB rc) := primary_encA ..

theorem Laws.Opcode.frsqrte (frD : BitVec 5) (frB : BitVec 5) (rc : Bool) :
    Laws.Opcode.Statement (.frsqrte frD frB rc) := primary_encA ..

theorem Laws.Opcode.fsel (frD : BitVec 5) (frA : BitVec 5) (frB : BitVec 5) (frC : BitVec 5) (rc : Bool) :
    Laws.Opcode.Statement (.fsel frD frA frB frC rc) := primary_encA ..

theorem Laws.Opcode.fmadd (frD : BitVec 5) (frA : BitVec 5) (frB : BitVec 5) (frC : BitVec 5) (rc : Bool) :
    Laws.Opcode.Statement (.fmadd frD frA frB frC rc) := primary_encA ..

theorem Laws.Opcode.fmadds (frD : BitVec 5) (frA : BitVec 5) (frB : BitVec 5) (frC : BitVec 5) (rc : Bool) :
    Laws.Opcode.Statement (.fmadds frD frA frB frC rc) := primary_encA ..

theorem Laws.Opcode.fmsub (frD : BitVec 5) (frA : BitVec 5) (frB : BitVec 5) (frC : BitVec 5) (rc : Bool) :
    Laws.Opcode.Statement (.fmsub frD frA frB frC rc) := primary_encA ..

theorem Laws.Opcode.fmsubs (frD : BitVec 5) (frA : BitVec 5) (frB : BitVec 5) (frC : BitVec 5) (rc : Bool) :
    Laws.Opcode.Statement (.fmsubs frD frA frB frC rc) := primary_encA ..

theorem Laws.Opcode.fnmadd (frD : BitVec 5) (frA : BitVec 5) (frB : BitVec 5) (frC : BitVec 5) (rc : Bool) :
    Laws.Opcode.Statement (.fnmadd frD frA frB frC rc) := primary_encA ..

theorem Laws.Opcode.fnmadds (frD : BitVec 5) (frA : BitVec 5) (frB : BitVec 5) (frC : BitVec 5) (rc : Bool) :
    Laws.Opcode.Statement (.fnmadds frD frA frB frC rc) := primary_encA ..

theorem Laws.Opcode.fnmsub (frD : BitVec 5) (frA : BitVec 5) (frB : BitVec 5) (frC : BitVec 5) (rc : Bool) :
    Laws.Opcode.Statement (.fnmsub frD frA frB frC rc) := primary_encA ..

theorem Laws.Opcode.fnmsubs (frD : BitVec 5) (frA : BitVec 5) (frB : BitVec 5) (frC : BitVec 5) (rc : Bool) :
    Laws.Opcode.Statement (.fnmsubs frD frA frB frC rc) := primary_encA ..

theorem Laws.Opcode.frsp (frD : BitVec 5) (frB : BitVec 5) (rc : Bool) :
    Laws.Opcode.Statement (.frsp frD frB rc) := primary_encX ..

theorem Laws.Opcode.fctiw (frD : BitVec 5) (frB : BitVec 5) (rc : Bool) :
    Laws.Opcode.Statement (.fctiw frD frB rc) := primary_encX ..

theorem Laws.Opcode.fctiwz (frD : BitVec 5) (frB : BitVec 5) (rc : Bool) :
    Laws.Opcode.Statement (.fctiwz frD frB rc) := primary_encX ..

theorem Laws.Opcode.fcmpu (crfD : BitVec 3) (frA : BitVec 5) (frB : BitVec 5) (rc : Bool) :
    Laws.Opcode.Statement (.fcmpu crfD frA frB rc) := primary_encX ..

theorem Laws.Opcode.fcmpo (crfD : BitVec 3) (frA : BitVec 5) (frB : BitVec 5) (rc : Bool) :
    Laws.Opcode.Statement (.fcmpo crfD frA frB rc) := primary_encX ..

theorem Laws.Opcode.mffs (frD : BitVec 5) (rc : Bool) : Laws.Opcode.Statement (.mffs frD rc) := primary_encX ..

theorem Laws.Opcode.mcrfs (crfD : BitVec 3) (crfS : BitVec 3) :
    Laws.Opcode.Statement (.mcrfs crfD crfS) := primary_encX ..

theorem Laws.Opcode.mtfsfi (crfD : BitVec 3) (imm : BitVec 4) (rc : Bool) :
    Laws.Opcode.Statement (.mtfsfi crfD imm rc) := primary_encX ..

theorem Laws.Opcode.mtfsf (fm : BitVec 8) (frB : BitVec 5) (rc : Bool) :
    Laws.Opcode.Statement (.mtfsf fm frB rc) := primary_mtfsf ..

theorem Laws.Opcode.mtfsb0 (crbD : BitVec 5) (rc : Bool) : Laws.Opcode.Statement (.mtfsb0 crbD rc) := primary_encX ..

theorem Laws.Opcode.mtfsb1 (crbD : BitVec 5) (rc : Bool) : Laws.Opcode.Statement (.mtfsb1 crbD rc) := primary_encX ..

theorem Laws.Opcode.fmr (frD : BitVec 5) (frB : BitVec 5) (rc : Bool) :
    Laws.Opcode.Statement (.fmr frD frB rc) := primary_encX ..

theorem Laws.Opcode.fneg (frD : BitVec 5) (frB : BitVec 5) (rc : Bool) :
    Laws.Opcode.Statement (.fneg frD frB rc) := primary_encX ..

theorem Laws.Opcode.fabs (frD : BitVec 5) (frB : BitVec 5) (rc : Bool) :
    Laws.Opcode.Statement (.fabs frD frB rc) := primary_encX ..

theorem Laws.Opcode.fnabs (frD : BitVec 5) (frB : BitVec 5) (rc : Bool) :
    Laws.Opcode.Statement (.fnabs frD frB rc) := primary_encX ..

theorem Laws.Opcode.lbz (rD : BitVec 5) (rA : BitVec 5) (d : BitVec 16) :
    Laws.Opcode.Statement (.lbz rD rA d) := primary_encD ..

theorem Laws.Opcode.lbzx (rD : BitVec 5) (rA : BitVec 5) (rB : BitVec 5) (rc : Bool) :
    Laws.Opcode.Statement (.lbzx rD rA rB rc) := primary_encX ..

theorem Laws.Opcode.lbzu (rD : BitVec 5) (rA : BitVec 5) (d : BitVec 16) :
    Laws.Opcode.Statement (.lbzu rD rA d) := primary_encD ..

theorem Laws.Opcode.lbzux (rD : BitVec 5) (rA : BitVec 5) (rB : BitVec 5) (rc : Bool) :
    Laws.Opcode.Statement (.lbzux rD rA rB rc) := primary_encX ..

theorem Laws.Opcode.lhz (rD : BitVec 5) (rA : BitVec 5) (d : BitVec 16) :
    Laws.Opcode.Statement (.lhz rD rA d) := primary_encD ..

theorem Laws.Opcode.lhzx (rD : BitVec 5) (rA : BitVec 5) (rB : BitVec 5) (rc : Bool) :
    Laws.Opcode.Statement (.lhzx rD rA rB rc) := primary_encX ..

theorem Laws.Opcode.lhzu (rD : BitVec 5) (rA : BitVec 5) (d : BitVec 16) :
    Laws.Opcode.Statement (.lhzu rD rA d) := primary_encD ..

theorem Laws.Opcode.lhzux (rD : BitVec 5) (rA : BitVec 5) (rB : BitVec 5) (rc : Bool) :
    Laws.Opcode.Statement (.lhzux rD rA rB rc) := primary_encX ..

theorem Laws.Opcode.lha (rD : BitVec 5) (rA : BitVec 5) (d : BitVec 16) :
    Laws.Opcode.Statement (.lha rD rA d) := primary_encD ..

theorem Laws.Opcode.lhax (rD : BitVec 5) (rA : BitVec 5) (rB : BitVec 5) (rc : Bool) :
    Laws.Opcode.Statement (.lhax rD rA rB rc) := primary_encX ..

theorem Laws.Opcode.lhau (rD : BitVec 5) (rA : BitVec 5) (d : BitVec 16) :
    Laws.Opcode.Statement (.lhau rD rA d) := primary_encD ..

theorem Laws.Opcode.lhaux (rD : BitVec 5) (rA : BitVec 5) (rB : BitVec 5) (rc : Bool) :
    Laws.Opcode.Statement (.lhaux rD rA rB rc) := primary_encX ..

theorem Laws.Opcode.lwz (rD : BitVec 5) (rA : BitVec 5) (d : BitVec 16) :
    Laws.Opcode.Statement (.lwz rD rA d) := primary_encD ..

theorem Laws.Opcode.lwzx (rD : BitVec 5) (rA : BitVec 5) (rB : BitVec 5) (rc : Bool) :
    Laws.Opcode.Statement (.lwzx rD rA rB rc) := primary_encX ..

theorem Laws.Opcode.lwzu (rD : BitVec 5) (rA : BitVec 5) (d : BitVec 16) :
    Laws.Opcode.Statement (.lwzu rD rA d) := primary_encD ..

theorem Laws.Opcode.lwzux (rD : BitVec 5) (rA : BitVec 5) (rB : BitVec 5) (rc : Bool) :
    Laws.Opcode.Statement (.lwzux rD rA rB rc) := primary_encX ..

theorem Laws.Opcode.stb (rS : BitVec 5) (rA : BitVec 5) (d : BitVec 16) :
    Laws.Opcode.Statement (.stb rS rA d) := primary_encD ..

theorem Laws.Opcode.stbx (rS : BitVec 5) (rA : BitVec 5) (rB : BitVec 5) (rc : Bool) :
    Laws.Opcode.Statement (.stbx rS rA rB rc) := primary_encX ..

theorem Laws.Opcode.stbu (rS : BitVec 5) (rA : BitVec 5) (d : BitVec 16) :
    Laws.Opcode.Statement (.stbu rS rA d) := primary_encD ..

theorem Laws.Opcode.stbux (rS : BitVec 5) (rA : BitVec 5) (rB : BitVec 5) (rc : Bool) :
    Laws.Opcode.Statement (.stbux rS rA rB rc) := primary_encX ..

theorem Laws.Opcode.sth (rS : BitVec 5) (rA : BitVec 5) (d : BitVec 16) :
    Laws.Opcode.Statement (.sth rS rA d) := primary_encD ..

theorem Laws.Opcode.sthx (rS : BitVec 5) (rA : BitVec 5) (rB : BitVec 5) (rc : Bool) :
    Laws.Opcode.Statement (.sthx rS rA rB rc) := primary_encX ..

theorem Laws.Opcode.sthu (rS : BitVec 5) (rA : BitVec 5) (d : BitVec 16) :
    Laws.Opcode.Statement (.sthu rS rA d) := primary_encD ..

theorem Laws.Opcode.sthux (rS : BitVec 5) (rA : BitVec 5) (rB : BitVec 5) (rc : Bool) :
    Laws.Opcode.Statement (.sthux rS rA rB rc) := primary_encX ..

theorem Laws.Opcode.stw (rS : BitVec 5) (rA : BitVec 5) (d : BitVec 16) :
    Laws.Opcode.Statement (.stw rS rA d) := primary_encD ..

theorem Laws.Opcode.stwx (rS : BitVec 5) (rA : BitVec 5) (rB : BitVec 5) (rc : Bool) :
    Laws.Opcode.Statement (.stwx rS rA rB rc) := primary_encX ..

theorem Laws.Opcode.stwu (rS : BitVec 5) (rA : BitVec 5) (d : BitVec 16) :
    Laws.Opcode.Statement (.stwu rS rA d) := primary_encD ..

theorem Laws.Opcode.stwux (rS : BitVec 5) (rA : BitVec 5) (rB : BitVec 5) (rc : Bool) :
    Laws.Opcode.Statement (.stwux rS rA rB rc) := primary_encX ..

theorem Laws.Opcode.lhbrx (rD : BitVec 5) (rA : BitVec 5) (rB : BitVec 5) (rc : Bool) :
    Laws.Opcode.Statement (.lhbrx rD rA rB rc) := primary_encX ..

theorem Laws.Opcode.lwbrx (rD : BitVec 5) (rA : BitVec 5) (rB : BitVec 5) (rc : Bool) :
    Laws.Opcode.Statement (.lwbrx rD rA rB rc) := primary_encX ..

theorem Laws.Opcode.sthbrx (rS : BitVec 5) (rA : BitVec 5) (rB : BitVec 5) (rc : Bool) :
    Laws.Opcode.Statement (.sthbrx rS rA rB rc) := primary_encX ..

theorem Laws.Opcode.stwbrx (rS : BitVec 5) (rA : BitVec 5) (rB : BitVec 5) (rc : Bool) :
    Laws.Opcode.Statement (.stwbrx rS rA rB rc) := primary_encX ..

theorem Laws.Opcode.lmw (rD : BitVec 5) (rA : BitVec 5) (d : BitVec 16) :
    Laws.Opcode.Statement (.lmw rD rA d) := primary_encD ..

theorem Laws.Opcode.stmw (rS : BitVec 5) (rA : BitVec 5) (d : BitVec 16) :
    Laws.Opcode.Statement (.stmw rS rA d) := primary_encD ..

theorem Laws.Opcode.lswi (rD : BitVec 5) (rA : BitVec 5) (nb : BitVec 5) (rc : Bool) :
    Laws.Opcode.Statement (.lswi rD rA nb rc) := primary_encX ..

theorem Laws.Opcode.lswx (rD : BitVec 5) (rA : BitVec 5) (rB : BitVec 5) (rc : Bool) :
    Laws.Opcode.Statement (.lswx rD rA rB rc) := primary_encX ..

theorem Laws.Opcode.stswi (rS : BitVec 5) (rA : BitVec 5) (nb : BitVec 5) (rc : Bool) :
    Laws.Opcode.Statement (.stswi rS rA nb rc) := primary_encX ..

theorem Laws.Opcode.stswx (rS : BitVec 5) (rA : BitVec 5) (rB : BitVec 5) (rc : Bool) :
    Laws.Opcode.Statement (.stswx rS rA rB rc) := primary_encX ..

theorem Laws.Opcode.lfs (frD : BitVec 5) (rA : BitVec 5) (d : BitVec 16) :
    Laws.Opcode.Statement (.lfs frD rA d) := primary_encD ..

theorem Laws.Opcode.lfsx (frD : BitVec 5) (rA : BitVec 5) (rB : BitVec 5) (rc : Bool) :
    Laws.Opcode.Statement (.lfsx frD rA rB rc) := primary_encX ..

theorem Laws.Opcode.lfsu (frD : BitVec 5) (rA : BitVec 5) (d : BitVec 16) :
    Laws.Opcode.Statement (.lfsu frD rA d) := primary_encD ..

theorem Laws.Opcode.lfsux (frD : BitVec 5) (rA : BitVec 5) (rB : BitVec 5) (rc : Bool) :
    Laws.Opcode.Statement (.lfsux frD rA rB rc) := primary_encX ..

theorem Laws.Opcode.lfd (frD : BitVec 5) (rA : BitVec 5) (d : BitVec 16) :
    Laws.Opcode.Statement (.lfd frD rA d) := primary_encD ..

theorem Laws.Opcode.lfdx (frD : BitVec 5) (rA : BitVec 5) (rB : BitVec 5) (rc : Bool) :
    Laws.Opcode.Statement (.lfdx frD rA rB rc) := primary_encX ..

theorem Laws.Opcode.lfdu (frD : BitVec 5) (rA : BitVec 5) (d : BitVec 16) :
    Laws.Opcode.Statement (.lfdu frD rA d) := primary_encD ..

theorem Laws.Opcode.lfdux (frD : BitVec 5) (rA : BitVec 5) (rB : BitVec 5) (rc : Bool) :
    Laws.Opcode.Statement (.lfdux frD rA rB rc) := primary_encX ..

theorem Laws.Opcode.stfs (frS : BitVec 5) (rA : BitVec 5) (d : BitVec 16) :
    Laws.Opcode.Statement (.stfs frS rA d) := primary_encD ..

theorem Laws.Opcode.stfsx (frS : BitVec 5) (rA : BitVec 5) (rB : BitVec 5) (rc : Bool) :
    Laws.Opcode.Statement (.stfsx frS rA rB rc) := primary_encX ..

theorem Laws.Opcode.stfsu (frS : BitVec 5) (rA : BitVec 5) (d : BitVec 16) :
    Laws.Opcode.Statement (.stfsu frS rA d) := primary_encD ..

theorem Laws.Opcode.stfsux (frS : BitVec 5) (rA : BitVec 5) (rB : BitVec 5) (rc : Bool) :
    Laws.Opcode.Statement (.stfsux frS rA rB rc) := primary_encX ..

theorem Laws.Opcode.stfd (frS : BitVec 5) (rA : BitVec 5) (d : BitVec 16) :
    Laws.Opcode.Statement (.stfd frS rA d) := primary_encD ..

theorem Laws.Opcode.stfdx (frS : BitVec 5) (rA : BitVec 5) (rB : BitVec 5) (rc : Bool) :
    Laws.Opcode.Statement (.stfdx frS rA rB rc) := primary_encX ..

theorem Laws.Opcode.stfdu (frS : BitVec 5) (rA : BitVec 5) (d : BitVec 16) :
    Laws.Opcode.Statement (.stfdu frS rA d) := primary_encD ..

theorem Laws.Opcode.stfdux (frS : BitVec 5) (rA : BitVec 5) (rB : BitVec 5) (rc : Bool) :
    Laws.Opcode.Statement (.stfdux frS rA rB rc) := primary_encX ..

theorem Laws.Opcode.stfiwx (frS : BitVec 5) (rA : BitVec 5) (rB : BitVec 5) (rc : Bool) :
    Laws.Opcode.Statement (.stfiwx frS rA rB rc) := primary_encX ..

theorem Laws.Opcode.b (li : BitVec 24) (aa : Bool) (lk : Bool) : Laws.Opcode.Statement (.b li aa lk) := primary_b ..

theorem Laws.Opcode.bc (bo : BitVec 5) (bi : BitVec 5) (bd : BitVec 14) (aa : Bool) (lk : Bool) :
    Laws.Opcode.Statement (.bc bo bi bd aa lk) := primary_bc ..

theorem Laws.Opcode.bclr (bo : BitVec 5) (bi : BitVec 5) (lk : Bool) :
    Laws.Opcode.Statement (.bclr bo bi lk) := primary_encX ..

theorem Laws.Opcode.bcctr (bo : BitVec 5) (bi : BitVec 5) (lk : Bool) :
    Laws.Opcode.Statement (.bcctr bo bi lk) := primary_encX ..

theorem Laws.Opcode.crand (crbD : BitVec 5) (crbA : BitVec 5) (crbB : BitVec 5) :
    Laws.Opcode.Statement (.crand crbD crbA crbB) := primary_encX ..

theorem Laws.Opcode.cror (crbD : BitVec 5) (crbA : BitVec 5) (crbB : BitVec 5) :
    Laws.Opcode.Statement (.cror crbD crbA crbB) := primary_encX ..

theorem Laws.Opcode.crxor (crbD : BitVec 5) (crbA : BitVec 5) (crbB : BitVec 5) :
    Laws.Opcode.Statement (.crxor crbD crbA crbB) := primary_encX ..

theorem Laws.Opcode.crnand (crbD : BitVec 5) (crbA : BitVec 5) (crbB : BitVec 5) :
    Laws.Opcode.Statement (.crnand crbD crbA crbB) := primary_encX ..

theorem Laws.Opcode.crnor (crbD : BitVec 5) (crbA : BitVec 5) (crbB : BitVec 5) :
    Laws.Opcode.Statement (.crnor crbD crbA crbB) := primary_encX ..

theorem Laws.Opcode.creqv (crbD : BitVec 5) (crbA : BitVec 5) (crbB : BitVec 5) :
    Laws.Opcode.Statement (.creqv crbD crbA crbB) := primary_encX ..

theorem Laws.Opcode.crandc (crbD : BitVec 5) (crbA : BitVec 5) (crbB : BitVec 5) :
    Laws.Opcode.Statement (.crandc crbD crbA crbB) := primary_encX ..

theorem Laws.Opcode.crorc (crbD : BitVec 5) (crbA : BitVec 5) (crbB : BitVec 5) :
    Laws.Opcode.Statement (.crorc crbD crbA crbB) := primary_encX ..

theorem Laws.Opcode.mcrf (crfD : BitVec 3) (crfS : BitVec 3) :
    Laws.Opcode.Statement (.mcrf crfD crfS) := primary_encX ..

theorem Laws.Opcode.twi (tcond : BitVec 5) (rA : BitVec 5) (simm : BitVec 16) :
    Laws.Opcode.Statement (.twi tcond rA simm) := primary_encD ..

theorem Laws.Opcode.tw (tcond : BitVec 5) (rA : BitVec 5) (rB : BitVec 5) :
    Laws.Opcode.Statement (.tw tcond rA rB) := primary_encX ..

theorem Laws.Opcode.sc : Laws.Opcode.Statement .sc := rfl

theorem Laws.Opcode.rfi : Laws.Opcode.Statement .rfi := primary_encX ..

theorem Laws.Opcode.mtmsr (rS : BitVec 5) : Laws.Opcode.Statement (.mtmsr rS) := primary_encX ..

theorem Laws.Opcode.mfmsr (rD : BitVec 5) : Laws.Opcode.Statement (.mfmsr rD) := primary_encX ..

theorem Laws.Opcode.mtcrf (rS : BitVec 5) (crm : BitVec 8) : Laws.Opcode.Statement (.mtcrf rS crm) := primary_encXFX ..

theorem Laws.Opcode.mcrxr (crfD : BitVec 3) : Laws.Opcode.Statement (.mcrxr crfD) := primary_encX ..

theorem Laws.Opcode.mfcr (rD : BitVec 5) : Laws.Opcode.Statement (.mfcr rD) := primary_encX ..

theorem Laws.Opcode.mtspr (rS : BitVec 5) (spr : BitVec 10) (rc : Bool) :
    Laws.Opcode.Statement (.mtspr rS spr rc) := primary_encXFX ..

theorem Laws.Opcode.mfspr (rD : BitVec 5) (spr : BitVec 10) (rc : Bool) :
    Laws.Opcode.Statement (.mfspr rD spr rc) := primary_encXFX ..

theorem Laws.Opcode.mftb (rD : BitVec 5) (tbr : BitVec 10) : Laws.Opcode.Statement (.mftb rD tbr) := primary_encXFX ..

theorem Laws.Opcode.lwarx (rD : BitVec 5) (rA : BitVec 5) (rB : BitVec 5) (rc : Bool) :
    Laws.Opcode.Statement (.lwarx rD rA rB rc) := primary_encX ..

theorem Laws.Opcode.stwcxRec (rS : BitVec 5) (rA : BitVec 5) (rB : BitVec 5) (rc : Bool) :
    Laws.Opcode.Statement (.stwcxRec rS rA rB rc) := primary_encX ..

theorem Laws.Opcode.sync (rc : Bool) : Laws.Opcode.Statement (.sync rc) := primary_encX ..

theorem Laws.Opcode.eieio : Laws.Opcode.Statement .eieio := primary_encX ..

theorem Laws.Opcode.isync : Laws.Opcode.Statement .isync := primary_encX ..

theorem Laws.Opcode.dcbt (rA : BitVec 5) (rB : BitVec 5) : Laws.Opcode.Statement (.dcbt rA rB) := primary_encX ..

theorem Laws.Opcode.dcbtst (rA : BitVec 5) (rB : BitVec 5) : Laws.Opcode.Statement (.dcbtst rA rB) := primary_encX ..

theorem Laws.Opcode.dcbz (rA : BitVec 5) (rB : BitVec 5) : Laws.Opcode.Statement (.dcbz rA rB) := primary_encX ..

theorem Laws.Opcode.dcbst (rA : BitVec 5) (rB : BitVec 5) : Laws.Opcode.Statement (.dcbst rA rB) := primary_encX ..

theorem Laws.Opcode.dcbf (rA : BitVec 5) (rB : BitVec 5) : Laws.Opcode.Statement (.dcbf rA rB) := primary_encX ..

theorem Laws.Opcode.icbi (rA : BitVec 5) (rB : BitVec 5) : Laws.Opcode.Statement (.icbi rA rB) := primary_encX ..

theorem Laws.Opcode.dcbi (rA : BitVec 5) (rB : BitVec 5) : Laws.Opcode.Statement (.dcbi rA rB) := primary_encX ..

theorem Laws.Opcode.eciwx (rD : BitVec 5) (rA : BitVec 5) (rB : BitVec 5) :
    Laws.Opcode.Statement (.eciwx rD rA rB) := primary_encX ..

theorem Laws.Opcode.ecowx (rS : BitVec 5) (rA : BitVec 5) (rB : BitVec 5) :
    Laws.Opcode.Statement (.ecowx rS rA rB) := primary_encX ..

theorem Laws.Opcode.mtsr (rS : BitVec 5) (sr : BitVec 4) : Laws.Opcode.Statement (.mtsr rS sr) := primary_encX ..

theorem Laws.Opcode.mtsrin (rS : BitVec 5) (rB : BitVec 5) : Laws.Opcode.Statement (.mtsrin rS rB) := primary_encX ..

theorem Laws.Opcode.mfsr (rD : BitVec 5) (sr : BitVec 4) : Laws.Opcode.Statement (.mfsr rD sr) := primary_encX ..

theorem Laws.Opcode.mfsrin (rD : BitVec 5) (rB : BitVec 5) : Laws.Opcode.Statement (.mfsrin rD rB) := primary_encX ..

theorem Laws.Opcode.tlbie (rB : BitVec 5) : Laws.Opcode.Statement (.tlbie rB) := primary_encX ..

theorem Laws.Opcode.tlbsync : Laws.Opcode.Statement .tlbsync := primary_encX ..

end Sys2Proof
end

