-- ==== Sys2Proof/Laws/Run.lean ====
section
/-! SUPPORT. Laws/Run.lean: what the note of an implicit branch, the end of an instruction and a step can do. -/

namespace Sys2Proof.Machine

/-! ### noteMoved -/

@[simp] theorem State.noteMoved_gpr (t s : State) (i : Instr) : (t.noteMoved s i).gpr = t.gpr := rfl
@[simp] theorem State.noteMoved_fpr (t s : State) (i : Instr) : (t.noteMoved s i).fpr = t.fpr := rfl
@[simp] theorem State.noteMoved_cr (t s : State) (i : Instr) : (t.noteMoved s i).cr = t.cr := rfl
@[simp] theorem State.noteMoved_fpscr (t s : State) (i : Instr) : (t.noteMoved s i).fpscr = t.fpscr := rfl
@[simp] theorem State.noteMoved_xer (t s : State) (i : Instr) : (t.noteMoved s i).xer = t.xer := rfl
@[simp] theorem State.noteMoved_lr (t s : State) (i : Instr) : (t.noteMoved s i).lr = t.lr := rfl
@[simp] theorem State.noteMoved_ctr (t s : State) (i : Instr) : (t.noteMoved s i).ctr = t.ctr := rfl
@[simp] theorem State.noteMoved_pc (t s : State) (i : Instr) : (t.noteMoved s i).pc = t.pc := rfl
@[simp] theorem State.noteMoved_msr (t s : State) (i : Instr) : (t.noteMoved s i).msr = t.msr := rfl
@[simp] theorem State.noteMoved_tb (t s : State) (i : Instr) : (t.noteMoved s i).tb = t.tb := rfl
@[simp] theorem State.noteMoved_dec (t s : State) (i : Instr) : (t.noteMoved s i).dec = t.dec := rfl
@[simp] theorem State.noteMoved_exc (t s : State) (i : Instr) : (t.noteMoved s i).exc = t.exc := rfl
@[simp] theorem State.noteMoved_mmu (t s : State) (i : Instr) : (t.noteMoved s i).mmu = t.mmu := rfl
@[simp] theorem State.noteMoved_cfg (t s : State) (i : Instr) : (t.noteMoved s i).cfg = t.cfg := rfl
@[simp] theorem State.noteMoved_pm (t s : State) (i : Instr) : (t.noteMoved s i).pm = t.pm := rfl
@[simp] theorem State.noteMoved_resv (t s : State) (i : Instr) : (t.noteMoved s i).resv = t.resv := rfl
@[simp] theorem State.noteMoved_resvAddr (t s : State) (i : Instr) : (t.noteMoved s i).resvAddr = t.resvAddr := rfl
@[simp] theorem State.noteMoved_itlb (t s : State) (i : Instr) : (t.noteMoved s i).itlb = t.itlb := rfl
@[simp] theorem State.noteMoved_dtlb (t s : State) (i : Instr) : (t.noteMoved s i).dtlb = t.dtlb := rfl
@[simp] theorem State.noteMoved_icache (t s : State) (i : Instr) : (t.noteMoved s i).icache = t.icache := rfl
@[simp] theorem State.noteMoved_dcache (t s : State) (i : Instr) : (t.noteMoved s i).dcache = t.dcache := rfl
@[simp] theorem State.noteMoved_latches (t s : State) (i : Instr) : (t.noteMoved s i).latches = t.latches := rfl
@[simp] theorem State.noteMoved_pins (t s : State) (i : Instr) : (t.noteMoved s i).pins = t.pins := rfl
@[simp] theorem State.noteMoved_mem (t s : State) (i : Instr) : (t.noteMoved s i).mem = t.mem := rfl
@[simp] theorem State.noteMoved_map (t s : State) (i : Instr) : (t.noteMoved s i).map = t.map := rfl
@[simp] theorem State.noteMoved_inputs (t s : State) (i : Instr) : (t.noteMoved s i).inputs = t.inputs := rfl
@[simp] theorem State.noteMoved_busLog (t s : State) (i : Instr) : (t.noteMoved s i).busLog = t.busLog := rfl
@[simp] theorem State.noteMoved_fresh (t s : State) (i : Instr) : (t.noteMoved s i).fresh = t.fresh := rfl
@[simp] theorem State.noteMoved_took (t s : State) (i : Instr) : (t.noteMoved s i).took = t.took := rfl
@[simp] theorem State.noteMoved_lastIa (t s : State) (i : Instr) : (t.noteMoved s i).lastIa = t.lastIa := rfl
@[simp] theorem State.noteMoved_tea (t s : State) (i : Instr) : (t.noteMoved s i).tea = t.tea := rfl
@[simp] theorem State.noteMoved_fprSingle (t s : State) (i : Instr) : (t.noteMoved s i).fprSingle = t.fprSingle := rfl
@[simp] theorem State.noteMoved_moved (t s : State) (i : Instr) :
    (t.noteMoved s i).moved = (!t.took && altersStream s i && implicitBranch s t t.pc) := rfl

/-! ### What a step can do -/

/-- An instruction ends in a next state exactly where its meaning does. -/
theorem finishInstr_next {s t : State} {i : Instr} {r : Result} :
    finishInstr s i r = .next t ↔ ∃ u, r = .next u ∧ t = (u.noteMoved s i).complete s i := by
  cases r <;> simp [finishInstr, eq_comm]

/-- An instruction that cannot move the running code is noted as no implicit branch. -/
theorem State.noteMoved_of_still {t s : State} {i : Instr} (h : altersStream s i = false) :
    (t.noteMoved s i).moved = false := by simp [h]

/-- The end of an instruction leaves the note of an implicit branch, or takes an exception, which clears it. -/
theorem State.complete_moved (t s : State) (i : Instr) :
    (t.complete s i).moved = t.moved ∨ ((t.complete s i).moved = false ∧ (t.complete s i).took = true) := by
  unfold State.complete
  split
  · split <;> exact .inl rfl
  · dsimp only
    split
    · exact .inr ⟨rfl, rfl⟩
    · exact .inl rfl

/-- A step that answers a next state is a boundary alone, or a boundary and one instruction that no implicit branch
precedes. -/
theorem State.advanceMachine_cases {s t : State} (h : s.advanceMachine = .next t) :
    (s.boundary.2 = true ∧ t = s.boundary.1) ∨
      (s.boundary.2 = false ∧ s.boundary.1.moved = false ∧ s.boundary.1.fetchAndRun = .next t) := by
  unfold State.advanceMachine at h
  split at h
  · cases h
  · dsimp only at h
    split at h
    · exact .inl ⟨‹_›, (by cases h; rfl)⟩
    · split at h
      · cases h
      · exact .inr ⟨by simpa using ‹¬s.boundary.2 = true›, by simpa using ‹¬s.boundary.1.moved = true›, h⟩

end Sys2Proof.Machine
end

