-- ==== Sys2Proof/Tests/Slice0.lean ====
section
/-! SUPPORT. Tests/Slice0.lean: tests against the spec's examples and derived vectors, and for every statement with
hypotheses a state and operands that meet them. -/

namespace Sys2Proof.Tests

open Sys2Proof.Machine

-- One theorem at a time: a kernel evaluation waits for the theorems before it, and each one waiting holds a thread.
set_option Elab.async false

/-! ### Ill-formed terms: one refused by each check -/

theorem test_form_longCompare : (Instr.cmpi 0 true 3 0).formProblem = some .longCompare := by decide

theorem test_form_recordBit : (Instr.lwzx 3 4 5 true).formProblem = some .recordBit := by decide

theorem test_form_recordBit_stwcx : (Instr.stwcxRec 3 4 5 false).formProblem = some .recordBit := by decide

theorem test_form_updateBaseZero : (Instr.stwu 3 0 4).formProblem = some .updateBaseZero := by decide

theorem test_form_updateTarget : (Instr.lwzu 4 4 4).formProblem = some .updateTarget := by decide

theorem test_form_baseInRange : (Instr.lmw 3 4 0).formProblem = some .baseInRange := by decide

theorem test_form_baseInRange_wrap : (Instr.lswi 30 4 0 false).formProblem = some .baseInRange := by decide

theorem test_form_counterBranch : (Instr.bcctr 16 0 false).formProblem = some .counterBranch := by decide

theorem test_form_branchOptions : (Instr.bc 31 0 4 false false).formProblem = some .branchOptions := by decide

theorem test_form_undefinedSpr : (Instr.mfspr 3 1011 false).formProblem = some .undefinedSpr := by decide

theorem test_form_undefinedTbr : (Instr.mftb 3 284).formProblem = some .undefinedTbr := by decide

/-- The valid neighbours of those terms pass. -/
theorem test_form_valid : [Instr.cmpi 0 false 3 0, .lwzx 3 4 5 false, .stwcxRec 3 4 5 true, .stwu 3 4 4, .lwzu 3 4 4,
    .lmw 5 4 0, .lswi 30 6 0 false, .bcctr 20 0 false, .bc 20 0 4 false false, .mfspr 3 1010 false,
    .mftb 3 269].all Instr.wellFormed = true := by decide

/-! ### Decoding -/

/-- The addition words, from the rules' examples. -/
theorem test_decode_addition :
    decode 0x3860FFFF = .ok (.addi 3 0 0xFFFF) ∧
    decode 0x3C648000 = .ok (.addis 3 4 0x8000) ∧
    decode 0x30640001 = .ok (.addic 3 4 1) ∧
    decode 0x3464FFFF = .ok (.addicRec 3 4 0xFFFF) ∧
    decode 0x2064000A = .ok (.subfic 3 4 10) ∧
    decode 0x7C642A14 = .ok (.add 3 4 5 false false) ∧
    decode 0x7C642850 = .ok (.subf 3 4 5 false false) ∧
    decode 0x7C642814 = .ok (.addc 3 4 5 false false) ∧
    decode 0x7C642810 = .ok (.subfc 3 4 5 false false) ∧
    decode 0x7C642914 = .ok (.adde 3 4 5 false false) ∧
    decode 0x7C642910 = .ok (.subfe 3 4 5 false false) ∧
    decode 0x7C6401D4 = .ok (.addme 3 4 false false) ∧
    decode 0x7C6401D0 = .ok (.subfme 3 4 false false) ∧
    decode 0x7C640194 = .ok (.addze 3 4 false false) ∧
    decode 0x7C640190 = .ok (.subfze 3 4 false false) ∧
    decode 0x7C6400D0 = .ok (.neg 3 4 false false) := by
  decide

/-- The multiplication and division words, from the rules' examples. -/
theorem test_decode_multiplication_and_division :
    decode 0x1C64FFFF = .ok (.mulli 3 4 0xFFFF) ∧
    decode 0x7C6429D6 = .ok (.mullw 3 4 5 false false) ∧
    decode 0x7C642896 = .ok (.mulhw 3 4 5 false) ∧
    decode 0x7C642816 = .ok (.mulhwu 3 4 5 false) ∧
    decode 0x7C642BD6 = .ok (.divw 3 4 5 false false) ∧
    decode 0x7C642B96 = .ok (.divwu 3 4 5 false false) := by
  decide

/-- The compare words, from the rules' examples. -/
theorem test_decode_compare :
    decode 0x2F84FFFF = .ok (.cmpi 7 false 4 0xFFFF) ∧
    decode 0x7C042800 = .ok (.cmp 0 false 4 5) ∧
    decode 0x28040005 = .ok (.cmpli 0 false 4 5) ∧
    decode 0x7C042840 = .ok (.cmpl 0 false 4 5) := by
  decide

/-- The logical words, from the rules' examples. -/
theorem test_decode_logical :
    decode 0x708300FF = .ok (.andiRec 4 3 255) ∧
    decode 0x74838000 = .ok (.andisRec 4 3 0x8000) ∧
    decode 0x608300FF = .ok (.ori 4 3 255) ∧
    decode 0x64831234 = .ok (.oris 4 3 0x1234) ∧
    decode 0x6883FFFF = .ok (.xori 4 3 0xFFFF) ∧
    decode 0x6C830001 = .ok (.xoris 4 3 1) ∧
    decode 0x7C832838 = .ok (.and 4 3 5 false) ∧
    decode 0x7C832378 = .ok (.or 4 3 4 false) ∧
    decode 0x7C832A78 = .ok (.xor 4 3 5 false) ∧
    decode 0x7C832BB8 = .ok (.nand 4 3 5 false) ∧
    decode 0x7C8320F8 = .ok (.nor 4 3 4 false) ∧
    decode 0x7C832A38 = .ok (.eqv 4 3 5 false) ∧
    decode 0x7C832878 = .ok (.andc 4 3 5 false) ∧
    decode 0x7C832B38 = .ok (.orc 4 3 5 false) ∧
    decode 0x7C830774 = .ok (.extsb 4 3 false) ∧
    decode 0x7C830734 = .ok (.extsh 4 3 false) ∧
    decode 0x7C830034 = .ok (.cntlzw 4 3 false) := by
  decide

/-- The rotate and shift words, from the rules' examples. -/
theorem test_decode_rotate_and_shift :
    decode 0x5483402E = .ok (.rlwinm 4 3 8 0 23 false) ∧
    decode 0x5C83283E = .ok (.rlwnm 4 3 5 0 31 false) ∧
    decode 0x5083801E = .ok (.rlwimi 4 3 16 0 15 false) ∧
    decode 0x7C832830 = .ok (.slw 4 3 5 false) ∧
    decode 0x7C832C30 = .ok (.srw 4 3 5 false) ∧
    decode 0x7C830670 = .ok (.srawi 4 3 0 false) ∧
    decode 0x7C832E30 = .ok (.sraw 4 3 5 false) := by
  decide

/-- The floating-point arithmetic words, from the rules' examples. -/
theorem test_decode_floating_point_arithmetic :
    decode 0xFC22182A = .ok (.fadd 1 2 3 false) ∧
    decode 0xEC22182A = .ok (.fadds 1 2 3 false) ∧
    decode 0xFC221828 = .ok (.fsub 1 2 3 false) ∧
    decode 0xEC221828 = .ok (.fsubs 1 2 3 false) ∧
    decode 0xFC2200F2 = .ok (.fmul 1 2 3 false) ∧
    decode 0xEC2200F2 = .ok (.fmuls 1 2 3 false) ∧
    decode 0xFC221824 = .ok (.fdiv 1 2 3 false) ∧
    decode 0xEC221824 = .ok (.fdivs 1 2 3 false) ∧
    decode 0xEC201830 = .ok (.fres 1 3 false) ∧
    decode 0xFC201834 = .ok (.frsqrte 1 3 false) ∧
    decode 0xFC22192E = .ok (.fsel 1 2 3 4 false) ∧
    decode 0xFC22193A = .ok (.fmadd 1 2 3 4 false) ∧
    decode 0xEC22193A = .ok (.fmadds 1 2 3 4 false) ∧
    decode 0xFC221938 = .ok (.fmsub 1 2 3 4 false) ∧
    decode 0xEC221938 = .ok (.fmsubs 1 2 3 4 false) ∧
    decode 0xFC22193E = .ok (.fnmadd 1 2 3 4 false) ∧
    decode 0xEC22193E = .ok (.fnmadds 1 2 3 4 false) ∧
    decode 0xFC22193C = .ok (.fnmsub 1 2 3 4 false) ∧
    decode 0xEC22193C = .ok (.fnmsubs 1 2 3 4 false) := by
  decide

/-- The floating-point conversion, compare, move words, from the rules' examples. -/
theorem test_decode_floating_point_conversion_compare_move :
    decode 0xFC201818 = .ok (.frsp 1 3 false) ∧
    decode 0xFC20181C = .ok (.fctiw 1 3 false) ∧
    decode 0xFC20181E = .ok (.fctiwz 1 3 false) ∧
    decode 0xFC821800 = .ok (.fcmpu 1 2 3 false) ∧
    decode 0xFC021840 = .ok (.fcmpo 0 2 3 false) ∧
    decode 0xFC20048E = .ok (.mffs 1 false) ∧
    decode 0xFD0C0080 = .ok (.mcrfs 2 3) ∧
    decode 0xFF80110C = .ok (.mtfsfi 7 1 false) ∧
    decode 0xFD000D8E = .ok (.mtfsf 128 1 false) ∧
    decode 0xFFA0008C = .ok (.mtfsb0 29 false) ∧
    decode 0xFFA0004C = .ok (.mtfsb1 29 false) ∧
    decode 0xFC201890 = .ok (.fmr 1 3 false) ∧
    decode 0xFC201850 = .ok (.fneg 1 3 false) ∧
    decode 0xFC201A10 = .ok (.fabs 1 3 false) ∧
    decode 0xFC201910 = .ok (.fnabs 1 3 false) := by
  decide

/-- The integer load words, from the rules' examples. -/
theorem test_decode_integer_load :
    decode 0x88640005 = .ok (.lbz 3 4 5) ∧
    decode 0x7C6428AE = .ok (.lbzx 3 4 5 false) ∧
    decode 0x8C640001 = .ok (.lbzu 3 4 1) ∧
    decode 0x7C6428EE = .ok (.lbzux 3 4 5 false) ∧
    decode 0xA0640002 = .ok (.lhz 3 4 2) ∧
    decode 0x7C642A2E = .ok (.lhzx 3 4 5 false) ∧
    decode 0xA4640002 = .ok (.lhzu 3 4 2) ∧
    decode 0x7C642A6E = .ok (.lhzux 3 4 5 false) ∧
    decode 0xA8640008 = .ok (.lha 3 4 8) ∧
    decode 0x7C642AAE = .ok (.lhax 3 4 5 false) ∧
    decode 0xAC64FFFE = .ok (.lhau 3 4 0xFFFE) ∧
    decode 0x7C642AEE = .ok (.lhaux 3 4 5 false) ∧
    decode 0x80640008 = .ok (.lwz 3 4 8) ∧
    decode 0x7C64282E = .ok (.lwzx 3 4 5 false) ∧
    decode 0x84600004 = .ok (.lwzu 3 0 4) ∧
    decode 0x7C64286E = .ok (.lwzux 3 4 5 false) ∧
    decode 0x7C642E2C = .ok (.lhbrx 3 4 5 false) ∧
    decode 0x7C642C2C = .ok (.lwbrx 3 4 5 false) := by
  decide

/-- The integer store words, from the rules' examples. -/
theorem test_decode_integer_store :
    decode 0x98640000 = .ok (.stb 3 4 0) ∧
    decode 0x7C6429AE = .ok (.stbx 3 4 5 false) ∧
    decode 0x9C640001 = .ok (.stbu 3 4 1) ∧
    decode 0x7C6429EE = .ok (.stbux 3 4 5 false) ∧
    decode 0xB0640002 = .ok (.sth 3 4 2) ∧
    decode 0x7C642B2E = .ok (.sthx 3 4 5 false) ∧
    decode 0xB4640002 = .ok (.sthu 3 4 2) ∧
    decode 0x7C642B6E = .ok (.sthux 3 4 5 false) ∧
    decode 0x90640008 = .ok (.stw 3 4 8) ∧
    decode 0x7C64292E = .ok (.stwx 3 4 5 false) ∧
    decode 0x94600004 = .ok (.stwu 3 0 4) ∧
    decode 0x7C64296E = .ok (.stwux 3 4 5 false) ∧
    decode 0x7C642F2C = .ok (.sthbrx 3 4 5 false) ∧
    decode 0x7C642D2C = .ok (.stwbrx 3 4 5 false) := by
  decide

/-- The multiple and string words, from the rules' examples. -/
theorem test_decode_multiple_and_string :
    decode 0xBBA40000 = .ok (.lmw 29 4 0) ∧
    decode 0xBFA1FFF4 = .ok (.stmw 29 1 0xFFF4) ∧
    decode 0x7CA434AA = .ok (.lswi 5 4 6 false) ∧
    decode 0x7CA41C2A = .ok (.lswx 5 4 3 false) ∧
    decode 0x7CA435AA = .ok (.stswi 5 4 6 false) ∧
    decode 0x7CA41D2A = .ok (.stswx 5 4 3 false) := by
  decide

/-- The floating-point load and store words, from the rules' examples. -/
theorem test_decode_floating_point_load_and_store :
    decode 0xC0240010 = .ok (.lfs 1 4 16) ∧
    decode 0x7C242C2E = .ok (.lfsx 1 4 5 false) ∧
    decode 0xC4240004 = .ok (.lfsu 1 4 4) ∧
    decode 0x7C242C6E = .ok (.lfsux 1 4 5 false) ∧
    decode 0xC8240010 = .ok (.lfd 1 4 16) ∧
    decode 0x7C242CAE = .ok (.lfdx 1 4 5 false) ∧
    decode 0xCC240008 = .ok (.lfdu 1 4 8) ∧
    decode 0x7C242CEE = .ok (.lfdux 1 4 5 false) ∧
    decode 0xD0240000 = .ok (.stfs 1 4 0) ∧
    decode 0x7C242D2E = .ok (.stfsx 1 4 5 false) ∧
    decode 0xD4240008 = .ok (.stfsu 1 4 8) ∧
    decode 0x7C242D6E = .ok (.stfsux 1 4 5 false) ∧
    decode 0xD8240008 = .ok (.stfd 1 4 8) ∧
    decode 0x7C242DAE = .ok (.stfdx 1 4 5 false) ∧
    decode 0xDC21FFF8 = .ok (.stfdu 1 1 0xFFF8) ∧
    decode 0x7C242DEE = .ok (.stfdux 1 4 5 false) ∧
    decode 0x7C242FAE = .ok (.stfiwx 1 4 5 false) := by
  decide

/-- The branch words, from the rules' examples. -/
theorem test_decode_branch :
    decode 0x4A000000 = .ok (.b 0x800000 false false) ∧
    decode 0x41820010 = .ok (.bc 12 2 4 false false) ∧
    decode 0x4E800020 = .ok (.bclr 20 0 false) ∧
    decode 0x4E000420 = .ok (.bcctr 16 0 false) := by
  decide

/-- The condition register words, from the rules' examples. -/
theorem test_decode_condition_register :
    decode 0x4C444A02 = .ok (.crand 2 4 9) ∧
    decode 0x4C444B82 = .ok (.cror 2 4 9) ∧
    decode 0x4C444982 = .ok (.crxor 2 4 9) ∧
    decode 0x4C4449C2 = .ok (.crnand 2 4 9) ∧
    decode 0x4C444842 = .ok (.crnor 2 4 9) ∧
    decode 0x4C444A42 = .ok (.creqv 2 4 9) ∧
    decode 0x4C444902 = .ok (.crandc 2 4 9) ∧
    decode 0x4C444B42 = .ok (.crorc 2 4 9) ∧
    decode 0x4C1C0000 = .ok (.mcrf 0 7) := by
  decide

/-- The trap and linkage words, from the rules' examples. -/
theorem test_decode_trap_and_linkage :
    decode 0x0CA3000A = .ok (.twi 5 3 10) ∧
    decode 0x7E032008 = .ok (.tw 16 3 4) ∧
    decode 0x44000002 = .ok (.sc) ∧
    decode 0x4C000064 = .ok (.rfi) := by
  decide

/-- The register move words, from the rules' examples. -/
theorem test_decode_register_move :
    decode 0x7C600124 = .ok (.mtmsr 3) ∧
    decode 0x7C6000A6 = .ok (.mfmsr 3) ∧
    decode 0x7C680120 = .ok (.mtcrf 3 128) ∧
    decode 0x7D000400 = .ok (.mcrxr 2) ∧
    decode 0x7C600026 = .ok (.mfcr 3) ∧
    decode 0x7C6903A6 = .ok (.mtspr 3 9 false) ∧
    decode 0x7C71FAA6 = .ok (.mfspr 3 1009 false) ∧
    decode 0x7C6C42E6 = .ok (.mftb 3 268) ∧
    decode 0x7C6501A4 = .ok (.mtsr 3 5) ∧
    decode 0x7C6021E4 = .ok (.mtsrin 3 4) ∧
    decode 0x7C6504A6 = .ok (.mfsr 3 5) ∧
    decode 0x7C602526 = .ok (.mfsrin 3 4) := by
  decide

/-- The synchronization words, from the rules' examples. -/
theorem test_decode_synchronization :
    decode 0x7CA01828 = .ok (.lwarx 5 0 3 false) ∧
    decode 0x7CA0192D = .ok (.stwcxRec 5 0 3 true) ∧
    decode 0x7C0004AC = .ok (.sync false) ∧
    decode 0x7C0006AC = .ok (.eieio) ∧
    decode 0x4C00012C = .ok (.isync) ∧
    decode 0x7C002264 = .ok (.tlbie 4) ∧
    decode 0x7C00046C = .ok (.tlbsync) := by
  decide

/-- The cache and external control words, from the rules' examples. -/
theorem test_decode_cache_and_external_control :
    decode 0x7C042A2C = .ok (.dcbt 4 5) ∧
    decode 0x7C0429EC = .ok (.dcbtst 4 5) ∧
    decode 0x7C042FEC = .ok (.dcbz 4 5) ∧
    decode 0x7C04286C = .ok (.dcbst 4 5) ∧
    decode 0x7C0428AC = .ok (.dcbf 4 5) ∧
    decode 0x7C042FAC = .ok (.icbi 4 5) ∧
    decode 0x7C042BAC = .ok (.dcbi 4 5) ∧
    decode 0x7C642A6C = .ok (.eciwx 3 4 5) ∧
    decode 0x7C642B6C = .ok (.ecowx 3 4 5) := by
  decide

/-- Flag bits: `addo.`, `and.`, `bla`, `bclrl`, `fadd.`, `lwzx` with bit 31 = 1. -/
theorem test_decode_flags :
    decode 0x7C642E15 = .ok (.add 3 4 5 true true) ∧
    decode 0x7C832839 = .ok (.and 4 3 5 true) ∧
    decode 0x4BFFFF03 = .ok (.b 0xFFFFC0 true true) ∧
    decode 0x4E800021 = .ok (.bclr 20 0 true) ∧
    decode 0xFC22182B = .ok (.fadd 1 2 3 true) ∧
    decode 0x7C64282F = .ok (.lwzx 3 4 5 true) := by
  decide

/-- Words that are no instructions of the 604e (30_encoding.md R284, R286): all zeros, `fsqrt`, `tlbia`,
`ld`. -/
theorem test_decode_illegal : [0x00000000, 0xFC20182C, 0x7C0002E4, 0xE8640000].all
    (fun w : Word => (decode w).toOption.isNone) = true := by decide

/-! ### One instruction on a small state -/

/-- Supervisor mode, big-endian, real addressing. -/
def start : State := { State.reset with pc := 0x2000, msr := 0x1002 }

/-- Image M of the test vectors: 16 bytes at 0x1000. -/
def image : State :=
  { start with
    mem := Memory.writeBytes [] 0x1000
      [0x00, 0x11, 0x22, 0x33, 0x44, 0x55, 0x66, 0x77, 0x88, 0x99, 0xAA, 0xBB, 0xCC, 0xDD, 0xEE, 0xFF] }

/-- Floating point on, with these values in FPR2, FPR3 and FPR4. -/
def floats (fpscr : Word) (a b c : Dword) : State :=
  (({ start with msr := 0x3002, fpscr := fpscr }.writeFpr 2 a).writeFpr 3 b).writeFpr 4 c

/-- User mode. -/
def user : State := { start with msr := 0x5002 }

/-- The word decodes to an instruction whose next state passes the check. -/
def after (w : Word) (s : State) (p : State → Bool) : Bool :=
  match decode w with
  | .ok i => match exec i s with
    | .next t => p t
    | .fault _ => false
    | .refused _ => false
  | .error _ => false

/-- The step answers a next state that passes the check. -/
def afterStep (s : State) (p : State → Bool) : Bool :=
  match step s with
  | .next t => p t
  | .fault _ => false
  | .refused _ => false

/-- `n` bytes of memory from `a` on. -/
def bytesAt (t : State) (a n : Nat) : List Byte := (List.range n).map fun k => Memory.read t.mem (a + k)

/-- Rows of section 2.1 of the test vectors (95_test_vectors.md): `addi`, `addis`, `addo.`, `subfo`, `addic`,
`addic.`. -/
theorem test_integer_arithmetic_a :
    after 0x3864FFFF (start.writeGpr 4 0x0)
      (fun t => t.readGpr 3 == 0xFFFFFFFF && beBit t.xer 2 == false) = true ∧
    after 0x3C648000 (start.writeGpr 4 0xFFFF)
      (fun t => t.readGpr 3 == 0x8000FFFF) = true ∧
    after 0x7C642E15 ((start.writeGpr 4 0x7FFFFFFF).writeGpr 5 0x1)
      (fun t => t.readGpr 3 == 0x80000000 && beBit t.xer 1 == true && beBit t.xer 0 == true &&
        getField4 t.cr 0 == 0b1001) = true ∧
    after 0x7C642C50 ((start.writeGpr 4 0x1).writeGpr 5 0x80000000)
      (fun t => t.readGpr 3 == 0x7FFFFFFF && beBit t.xer 1 == true && beBit t.xer 0 == true) = true ∧
    after 0x3064FFFF (start.writeGpr 4 0x0)
      (fun t => t.readGpr 3 == 0xFFFFFFFF && beBit t.xer 2 == false) = true ∧
    after 0x3464FFFF (start.writeGpr 4 0x80000000)
      (fun t => t.readGpr 3 == 0x7FFFFFFF && beBit t.xer 2 == true && getField4 t.cr 0 == 0b0100) = true := by
  decide

/-- Rows of section 2.1 of the test vectors (95_test_vectors.md): `subfic`, `addc`, `subfc`, `addeo`, `subfe`,
`addmeo`. -/
theorem test_integer_arithmetic_b :
    after 0x20640000 (start.writeGpr 4 0x0)
      (fun t => t.readGpr 3 == 0x0 && beBit t.xer 2 == true) = true ∧
    after 0x7C642814 ((start.writeGpr 4 0xFFFFFFFF).writeGpr 5 0x1)
      (fun t => t.readGpr 3 == 0x0 && beBit t.xer 2 == true) = true ∧
    after 0x7C642810 ((start.writeGpr 4 0x7).writeGpr 5 0x7)
      (fun t => t.readGpr 3 == 0x0 && beBit t.xer 2 == true) = true ∧
    after 0x7C642D14 (((start.writeGpr 4 0x7FFFFFFF).writeGpr 5 0x0).setCa true)
      (fun t => t.readGpr 3 == 0x80000000 && beBit t.xer 2 == false && beBit t.xer 1 == true &&
        beBit t.xer 0 == true) = true ∧
    after 0x7C642910 (((start.writeGpr 4 0x0).writeGpr 5 0x0).setCa false)
      (fun t => t.readGpr 3 == 0xFFFFFFFF && beBit t.xer 2 == false) = true ∧
    after 0x7C6405D4 ((start.writeGpr 4 0x80000000).setCa false)
      (fun t => t.readGpr 3 == 0x7FFFFFFF && beBit t.xer 2 == true && beBit t.xer 1 == true &&
        beBit t.xer 0 == true) = true := by
  decide

/-- Rows of section 2.1 of the test vectors (95_test_vectors.md): `subfme`, `addzeo.`, `subfze`, `neg`, `mulli`,
`mullwo.`. -/
theorem test_integer_arithmetic_c :
    after 0x7C6401D0 ((start.writeGpr 4 0x0).setCa false)
      (fun t => t.readGpr 3 == 0xFFFFFFFE && beBit t.xer 2 == true) = true ∧
    after 0x7C640595 ((start.writeGpr 4 0x7FFFFFFF).setCa true)
      (fun t => t.readGpr 3 == 0x80000000 && beBit t.xer 2 == false && beBit t.xer 1 == true &&
        beBit t.xer 0 == true && getField4 t.cr 0 == 0b1001) = true ∧
    after 0x7C640190 ((start.writeGpr 4 0x0).setCa true)
      (fun t => t.readGpr 3 == 0x0 && beBit t.xer 2 == true) = true ∧
    after 0x7C6400D0 ((start.writeGpr 4 0x80000000).setCa true)
      (fun t => t.readGpr 3 == 0x80000000 && beBit t.xer 2 == true && beBit t.xer 1 == false &&
        beBit t.xer 0 == false) = true ∧
    after 0x1C640002 (start.writeGpr 4 0x7FFFFFFF)
      (fun t => t.readGpr 3 == 0xFFFFFFFE && t.xer == 0x0) = true ∧
    after 0x7C642DD7 ((start.writeGpr 4 0xFFFFFFFF).writeGpr 5 0x2)
      (fun t => t.readGpr 3 == 0xFFFFFFFE && beBit t.xer 1 == false && beBit t.xer 0 == false &&
        getField4 t.cr 0 == 0b1000) = true := by
  decide

/-- Rows of section 2.1 of the test vectors (95_test_vectors.md): `mulhw`, `mulhwu.`, `divwo.`, `divwu`. -/
theorem test_integer_arithmetic_d :
    after 0x7C642896 ((start.writeGpr 4 0xFFFFFFFF).writeGpr 5 0xFFFFFFFF)
      (fun t => t.readGpr 3 == 0x0) = true ∧
    after 0x7C642817 ((start.writeGpr 4 0x80000000).writeGpr 5 0xFFFFFFFF)
      (fun t => t.readGpr 3 == 0x7FFFFFFF && getField4 t.cr 0 == 0b0100) = true ∧
    after 0x7C642FD7 (({ (start.writeGpr 4 0x80000000).writeGpr 5 0x1 with xer := 0x40000000 } : State))
      (fun t => t.readGpr 3 == 0x80000000 && beBit t.xer 1 == false && beBit t.xer 0 == false &&
        getField4 t.cr 0 == 0b1000) = true ∧
    after 0x7C642B96 ((start.writeGpr 4 0xFFFFFFF9).writeGpr 5 0x2)
      (fun t => t.readGpr 3 == 0x7FFFFFFC) = true := by
  decide

/-- Rows of section 2.2 of the test vectors (95_test_vectors.md): `cmpwi`, `cmplwi`, `cmpw`, `cmplw`. -/
theorem test_compare :
    after 0x2C03FFFF (start.writeGpr 3 0xFFFFFFFF)
      (fun t => getField4 t.cr 0 == 0b0010) = true ∧
    after 0x2803FFFF (start.writeGpr 3 0xFFFFFFFF)
      (fun t => getField4 t.cr 0 == 0b0100) = true ∧
    after 0x7C032000 ((start.writeGpr 3 0x80000000).writeGpr 4 0x7FFFFFFF)
      (fun t => getField4 t.cr 0 == 0b1000) = true ∧
    after 0x7C032040 ((start.writeGpr 3 0x80000000).writeGpr 4 0x7FFFFFFF)
      (fun t => getField4 t.cr 0 == 0b0100) = true := by
  decide

/-- Rows of section 2.3 of the test vectors (95_test_vectors.md): `andi.`, `andis.`, `ori`, `oris`, `xori`, `xoris`.
-/
theorem test_logical_a :
    after 0x708300FF (start.writeGpr 4 0x12345678)
      (fun t => t.readGpr 3 == 0x0078 && getField4 t.cr 0 == 0b0100) = true ∧
    after 0x74838000 (({ start.writeGpr 4 0xFFFFFFFF with xer := 0x80000000 } : State))
      (fun t => t.readGpr 3 == 0x80000000 && getField4 t.cr 0 == 0b1001) = true ∧
    after 0x60000000 (start.writeGpr 0 0x0055)
      (fun t => t.readGpr 0 == 0x0055 && t.cr == 0x0) = true ∧
    after 0x6483FFFF (start.writeGpr 4 0x1234)
      (fun t => t.readGpr 3 == 0xFFFF1234) = true ∧
    after 0x6883FFFF (start.writeGpr 4 0xFFFF)
      (fun t => t.readGpr 3 == 0x0) = true ∧
    after 0x6C838000 (start.writeGpr 4 0x80000000)
      (fun t => t.readGpr 3 == 0x0) = true := by
  decide

/-- Rows of section 2.3 of the test vectors (95_test_vectors.md): `and.`, `or`, `xor.`, `nand`, `nor`, `eqv`. -/
theorem test_logical_b :
    after 0x7C832839 ((start.writeGpr 4 0xF0F0F0F0).writeGpr 5 0xFF00FF00)
      (fun t => t.readGpr 3 == 0xF000F000 && getField4 t.cr 0 == 0b1000) = true ∧
    after 0x7C832378 (start.writeGpr 4 0xDEADBEEF)
      (fun t => t.readGpr 3 == 0xDEADBEEF) = true ∧
    after 0x7C832279 (start.writeGpr 4 0xDEADBEEF)
      (fun t => t.readGpr 3 == 0x0 && getField4 t.cr 0 == 0b0010) = true ∧
    after 0x7C832BB8 ((start.writeGpr 4 0xF0F0F0F0).writeGpr 5 0xFF00FF00)
      (fun t => t.readGpr 3 == 0x0FFF0FFF) = true ∧
    after 0x7C8320F8 (start.writeGpr 4 0xFFFF)
      (fun t => t.readGpr 3 == 0xFFFF0000) = true ∧
    after 0x7C832A38 ((start.writeGpr 4 0xF0F0F0F0).writeGpr 5 0xFF00FF00)
      (fun t => t.readGpr 3 == 0xF00FF00F) = true := by
  decide

/-- Rows of section 2.3 of the test vectors (95_test_vectors.md): `andc`, `orc`, `extsb`, `extsh.`, `cntlzw`. -/
theorem test_logical_c :
    after 0x7C832878 ((start.writeGpr 4 0xF0F0F0F0).writeGpr 5 0xFF00FF00)
      (fun t => t.readGpr 3 == 0x00F000F0) = true ∧
    after 0x7C832B38 ((start.writeGpr 4 0xF0F0F0F0).writeGpr 5 0xFF00FF00)
      (fun t => t.readGpr 3 == 0xF0FFF0FF) = true ∧
    after 0x7C830774 (start.writeGpr 4 0x12345680)
      (fun t => t.readGpr 3 == 0xFFFFFF80) = true ∧
    after 0x7C830735 (start.writeGpr 4 0x12348000)
      (fun t => t.readGpr 3 == 0xFFFF8000 && getField4 t.cr 0 == 0b1000) = true ∧
    after 0x7C830034 (start.writeGpr 4 0x0)
      (fun t => t.readGpr 3 == 0x0020) = true := by
  decide

/-- Rows of section 2.4 of the test vectors (95_test_vectors.md): `rlwinm`, `rlwnm`, `rlwimi.`, `slw`, `srw.`,
`srawi.`. -/
theorem test_rotate_and_shift_a :
    after 0x54830706 (start.writeGpr 4 0x12345678)
      (fun t => t.readGpr 3 == 0x10000008) = true ∧
    after 0x5C83283E ((start.writeGpr 4 0x80000001).writeGpr 5 0x0021)
      (fun t => t.readGpr 3 == 0x3) = true ∧
    after 0x5083F841 ((start.writeGpr 3 0x0).writeGpr 4 0x1)
      (fun t => t.readGpr 3 == 0x80000000 && getField4 t.cr 0 == 0b1000) = true ∧
    after 0x7C832830 ((start.writeGpr 4 0xFFFFFFFF).writeGpr 5 0x4)
      (fun t => t.readGpr 3 == 0xFFFFFFF0) = true ∧
    after 0x7C832C31 ((start.writeGpr 4 0x80000000).writeGpr 5 0x0020)
      (fun t => t.readGpr 3 == 0x0 && getField4 t.cr 0 == 0b0010) = true ∧
    after 0x7C83FE71 (start.writeGpr 4 0xFFFFFFFF)
      (fun t => t.readGpr 3 == 0xFFFFFFFF && beBit t.xer 2 == true && getField4 t.cr 0 == 0b1000) = true := by
  decide

/-- Rows of section 2.4 of the test vectors (95_test_vectors.md): `sraw`. -/
theorem test_rotate_and_shift_b :
    after 0x7C832E30 ((start.writeGpr 4 0x80000000).writeGpr 5 0x0028)
      (fun t => t.readGpr 3 == 0xFFFFFFFF && beBit t.xer 2 == true) = true := by
  decide

/-- Rows of section 2.5 of the test vectors (95_test_vectors.md): `bla`, `bc`, `bclr`, `bcctr`. -/
theorem test_branch :
    after 0x4BFFFF03 start
      (fun t => t.pc == 0xFFFFFF00 && t.lr == 0x2004) = true ∧
    after 0x4200FFF8 (({ start with ctr := 0x1 } : State))
      (fun t => t.ctr == 0x0 && t.pc == 0x2004) = true ∧
    after 0x4E800020 (({ start with lr := 0x3003 } : State))
      (fun t => t.pc == 0x3000 && t.lr == 0x3003) = true ∧
    after 0x4E800420 (({ start with ctr := 0x4002 } : State))
      (fun t => t.pc == 0x4000 && t.ctr == 0x4002) = true := by
  decide

/-- Rows of section 2.6 of the test vectors (95_test_vectors.md): `crand`, `cror`, `crxor`, `creqv`, `crnand`,
`crnor`. -/
theorem test_condition_register_a :
    after 0x4C011202 (({ start with cr := 0x60000000 } : State))
      (fun t => t.cr == 0xE0000000) = true ∧
    after 0x4FE00B82 (({ start with cr := 0x40000000 } : State))
      (fun t => t.cr == 0x40000001) = true ∧
    after 0x4CC63182 (({ start with cr := 0xFFFFFFFF } : State))
      (fun t => t.cr == 0xFDFFFFFF) = true ∧
    after 0x4CC63242 (({ start with cr := 0x0 } : State))
      (fun t => t.cr == 0x02000000) = true ∧
    after 0x4C0111C2 (({ start with cr := 0x60000000 } : State))
      (fun t => t.cr == 0x60000000) = true ∧
    after 0x4C010842 (({ start with cr := 0x40000000 } : State))
      (fun t => t.cr == 0x40000000) = true := by
  decide

/-- Rows of section 2.6 of the test vectors (95_test_vectors.md): `crandc`, `crorc`, `mcrf`, `mtcrf`, `mfcr`,
`mcrxr`. -/
theorem test_condition_register_b :
    after 0x4C011102 (({ start with cr := 0x40000000 } : State))
      (fun t => t.cr == 0xC0000000) = true ∧
    after 0x4C011342 (({ start with cr := 0x0 } : State))
      (fun t => t.cr == 0x80000000) = true ∧
    after 0x4C1C0000 (({ start with cr := 0xA } : State))
      (fun t => t.cr == 0xA000000A) = true ∧
    after 0x7C6FF120 (({ start.writeGpr 3 0x12345678 with cr := 0x0 } : State))
      (fun t => t.cr == 0x12345678) = true ∧
    after 0x7C600026 (({ start with cr := 0x9000000F } : State))
      (fun t => t.readGpr 3 == 0x9000000F) = true ∧
    after 0x7D000400 (({ ({ start with xer := 0xE000007F } : State) with cr := 0x0 } : State))
      (fun t => t.cr == 0x00E00000 && t.xer == 0x007F) = true := by
  decide

/-- Rows of section 2.7 of the test vectors (95_test_vectors.md): `twi`, `tw`. -/
theorem test_trap :
    after 0x0C830000 (({ start with msr := 0x9002 }).writeGpr 3 0x0)
      (fun t => t.exc.srr0 == 0x2000 && t.exc.srr1 == 0x00029002 && t.msr == 0x1000 && t.pc == 0x0700) = true ∧
    after 0x7FE00008 ({ start with msr := 0x9002 })
      (fun t => t.exc.srr0 == 0x2000 && t.exc.srr1 == 0x00029002 && t.msr == 0x1000 && t.pc == 0x0700) = true := by
  decide

/-- Rows of section 2.8 of the test vectors (95_test_vectors.md): `lbz`, `lbzx`, `lbzu`, `lbzux`, `lhz`, `lhzx`. -/
theorem test_load_and_store_a :
    after 0x88640001 ((image.writeGpr 4 0x1000).writeGpr 3 0xFFFFFFFF)
      (fun t => t.readGpr 3 == 0x0011) = true ∧
    after 0x7C6428AE ((image.writeGpr 4 0x1000).writeGpr 5 0xF)
      (fun t => t.readGpr 3 == 0x00FF) = true ∧
    after 0x8C640001 (image.writeGpr 4 0x1000)
      (fun t => t.readGpr 3 == 0x0011 && t.readGpr 4 == 0x1001) = true ∧
    after 0x7C6428EE ((image.writeGpr 4 0x0FFF).writeGpr 5 0x2)
      (fun t => t.readGpr 3 == 0x0011 && t.readGpr 4 == 0x1001) = true ∧
    after 0xA0640008 (image.writeGpr 4 0x1000)
      (fun t => t.readGpr 3 == 0x8899) = true ∧
    after 0x7C642A2E ((image.writeGpr 4 0x1000).writeGpr 5 0xE)
      (fun t => t.readGpr 3 == 0xEEFF) = true := by
  decide

/-- Rows of section 2.8 of the test vectors (95_test_vectors.md): `lhzu`, `lhzux`, `lha`, `lhax`, `lhau`, `lhaux`. -/
theorem test_load_and_store_b :
    after 0xA4640002 (image.writeGpr 4 0x1000)
      (fun t => t.readGpr 3 == 0x2233 && t.readGpr 4 == 0x1002) = true ∧
    after 0x7C642A6E ((image.writeGpr 4 0x1000).writeGpr 5 0x6)
      (fun t => t.readGpr 3 == 0x6677 && t.readGpr 4 == 0x1006) = true ∧
    after 0xA8640008 (image.writeGpr 4 0x1000)
      (fun t => t.readGpr 3 == 0xFFFF8899) = true ∧
    after 0x7C642AAE ((image.writeGpr 4 0x1000).writeGpr 5 0xC)
      (fun t => t.readGpr 3 == 0xFFFFCCDD) = true ∧
    after 0xAC64FFFE (image.writeGpr 4 0x1010)
      (fun t => t.readGpr 3 == 0xFFFFEEFF && t.readGpr 4 == 0x100E) = true ∧
    after 0x7C642AEE ((image.writeGpr 4 0x1000).writeGpr 5 0xA)
      (fun t => t.readGpr 3 == 0xFFFFAABB && t.readGpr 4 == 0x100A) = true := by
  decide

/-- Rows of section 2.8 of the test vectors (95_test_vectors.md): `lwz`, `lwzx`, `lwzu`, `lwzux`, `lhbrx`, `lwbrx`. -/
theorem test_load_and_store_c :
    after 0x80640001 (image.writeGpr 4 0x1000)
      (fun t => t.readGpr 3 == 0x11223344) = true ∧
    after 0x7C60282E ((image.writeGpr 0 0x9999).writeGpr 5 0x1008)
      (fun t => t.readGpr 3 == 0x8899AABB) = true ∧
    after 0x84640004 (image.writeGpr 4 0x1000)
      (fun t => t.readGpr 3 == 0x44556677 && t.readGpr 4 == 0x1004) = true ∧
    after 0x7C64286E ((image.writeGpr 4 0x1000).writeGpr 5 0xC)
      (fun t => t.readGpr 3 == 0xCCDDEEFF && t.readGpr 4 == 0x100C) = true ∧
    after 0x7C642E2C ((image.writeGpr 4 0x1000).writeGpr 5 0x2)
      (fun t => t.readGpr 3 == 0x3322) = true ∧
    after 0x7C642C2C ((image.writeGpr 4 0x1000).writeGpr 5 0x5)
      (fun t => t.readGpr 3 == 0x88776655) = true := by
  decide

/-- Rows of section 2.8 of the test vectors (95_test_vectors.md): `stb`, `stbx`, `stbu`, `stbux`, `sth`, `sthx`. -/
theorem test_load_and_store_d :
    after 0x98640001 ((image.writeGpr 4 0x1000).writeGpr 3 0x123456AB)
      (fun t => bytesAt t 0x1000 4 == [0x00, 0xAB, 0x22, 0x33]) = true ∧
    after 0x7C6429AE (((image.writeGpr 4 0x1000).writeGpr 5 0x3).writeGpr 3 0x00AB)
      (fun t => bytesAt t 0x1000 4 == [0x00, 0x11, 0x22, 0xAB]) = true ∧
    after 0x9C64FFFF ((image.writeGpr 4 0x1001).writeGpr 3 0x00AB)
      (fun t => bytesAt t 0x1000 4 == [0xAB, 0x11, 0x22, 0x33] && t.readGpr 4 == 0x1000) = true ∧
    after 0x7C6429EE (((image.writeGpr 4 0x1000).writeGpr 5 0x2).writeGpr 3 0x00AB)
      (fun t => bytesAt t 0x1000 4 == [0x00, 0x11, 0xAB, 0x33] && t.readGpr 4 == 0x1002) = true ∧
    after 0xB0640002 ((image.writeGpr 4 0x1000).writeGpr 3 0x1234ABCD)
      (fun t => bytesAt t 0x1000 4 == [0x00, 0x11, 0xAB, 0xCD]) = true ∧
    after 0x7C642B2E (((image.writeGpr 4 0x1000).writeGpr 5 0x0).writeGpr 3 0xABCD)
      (fun t => bytesAt t 0x1000 4 == [0xAB, 0xCD, 0x22, 0x33]) = true := by
  decide

/-- Rows of section 2.8 of the test vectors (95_test_vectors.md): `sthu`, `sthux`, `stw`, `stwx`, `stwu`, `stwux`. -/
theorem test_load_and_store_e :
    after 0xB4640002 ((image.writeGpr 4 0x1000).writeGpr 3 0xABCD)
      (fun t => bytesAt t 0x1000 4 == [0x00, 0x11, 0xAB, 0xCD] && t.readGpr 4 == 0x1002) = true ∧
    after 0x7C642B6E (((image.writeGpr 4 0x1000).writeGpr 5 0x2).writeGpr 3 0xABCD)
      (fun t => bytesAt t 0x1000 4 == [0x00, 0x11, 0xAB, 0xCD] && t.readGpr 4 == 0x1002) = true ∧
    after 0x90640002 ((image.writeGpr 4 0x1000).writeGpr 3 0xDEADBEEF)
      (fun t => bytesAt t 0x1000 8 == [0x00, 0x11, 0xDE, 0xAD, 0xBE, 0xEF, 0x66, 0x77]) = true ∧
    after 0x7C64292E (((image.writeGpr 4 0x1000).writeGpr 5 0x4).writeGpr 3 0xDEADBEEF)
      (fun t => bytesAt t 0x1000 8 == [0x00, 0x11, 0x22, 0x33, 0xDE, 0xAD, 0xBE, 0xEF]) = true ∧
    after 0x9421FFF0 (image.writeGpr 1 0x1010)
      (fun t => bytesAt t 0x1000 4 == [0x00, 0x00, 0x10, 0x10] && t.readGpr 1 == 0x1000) = true ∧
    after 0x7C64296E (((image.writeGpr 4 0x1000).writeGpr 5 0x4).writeGpr 3 0xDEADBEEF)
      (fun t => bytesAt t 0x1000 8 == [0x00, 0x11, 0x22, 0x33, 0xDE, 0xAD, 0xBE, 0xEF] &&
        t.readGpr 4 == 0x1004) = true := by
  decide

/-- Rows of section 2.8 of the test vectors (95_test_vectors.md): `sthbrx`, `stwbrx`. -/
theorem test_load_and_store_f :
    after 0x7C642F2C (((image.writeGpr 4 0x1000).writeGpr 5 0x0).writeGpr 3 0x1234ABCD)
      (fun t => bytesAt t 0x1000 4 == [0xCD, 0xAB, 0x22, 0x33]) = true ∧
    after 0x7C642D2C (((image.writeGpr 4 0x1000).writeGpr 5 0x0).writeGpr 3 0xDEADBEEF)
      (fun t => bytesAt t 0x1000 4 == [0xEF, 0xBE, 0xAD, 0xDE]) = true := by
  decide

/-- Rows of section 2.9 of the test vectors (95_test_vectors.md): `lmw`, `stmw`, `lswi`, `lswx`, `stswi`, `stswx`. -/
theorem test_multiple_and_string :
    after 0xBBA40000 (image.writeGpr 4 0x1000)
      (fun t => t.readGpr 29 == 0x00112233 && t.readGpr 30 == 0x44556677 && t.readGpr 31 == 0x8899AABB) = true ∧
    after 0xBFC40008 (((image.writeGpr 4 0x1000).writeGpr 30 0x01020304).writeGpr 31 0x05060708)
      (fun t => bytesAt t 0x1000 16 == [0x00, 0x11, 0x22, 0x33, 0x44, 0x55, 0x66, 0x77,
        0x01, 0x02, 0x03, 0x04, 0x05, 0x06, 0x07, 0x08]) = true ∧
    after 0x7FE444AA (image.writeGpr 4 0x1000)
      (fun t => t.readGpr 31 == 0x00112233 && t.readGpr 0 == 0x44556677) = true ∧
    after 0x7D04342A (({ (image.writeGpr 4 0x1000).writeGpr 6 0x2 with xer := 0x7 } : State))
      (fun t => t.readGpr 8 == 0x22334455 && t.readGpr 9 == 0x66778800) = true ∧
    after 0x7CA41DAA ((image.writeGpr 4 0x1004).writeGpr 5 0xA1B2C3D4)
      (fun t => bytesAt t 0x1000 8 == [0x00, 0x11, 0x22, 0x33, 0xA1, 0xB2, 0xC3, 0x77]) = true ∧
    after 0x7CA4352A ((
      ({ (image.writeGpr 4 0x1000).writeGpr 6 0x5 with xer := 0x20000002 } : State)).writeGpr 5 0xA1B2C3D4)
      (fun t => bytesAt t 0x1000 8 == [0x00, 0x11, 0x22, 0x33, 0x44, 0xA1, 0xB2, 0x77]) = true := by
  decide

/-! Rows of section 2.10 (96_test_vectors_fp_system.md). -/

/-- Sums, products and quotients, with FPSCR after them: 1/3, a zero divide, an exact denormalized product, a sum
rounded to single, a fused product and sum rounded once. -/
theorem test_float_arithmetic :
    after 0xFC221824 (floats 0 0x3FF0000000000000 0x4008000000000000 0)
      (fun t => t.readFpr 1 == 0x3FD5555555555555 && t.fpscr == 0x82024000) = true ∧
    after 0xFC221824 (floats 0x10 0xBFF0000000000000 0 0)
      (fun t => t.readFpr 1 == 0 && t.fpscr == 0xC4000010) = true ∧
    after 0xFC220132 (floats 0 0x0010000000000000 0 0x3FE0000000000000)
      (fun t => t.readFpr 1 == 0x0008000000000000 && t.fpscr == 0x00014000) = true ∧
    after 0xEC22182A (floats 0 0x3FF0000000000000 0x3E50000000000000 0)
      (fun t => t.readFpr 1 == 0x3FF0000000000000 && t.fpscr == 0x82024000) = true ∧
    after 0xFC22193A (floats 0 0x3FF0000000000001 0xBFF0000000000002 0x3FF0000000000001)
      (fun t => t.readFpr 1 == 0x3970000000000000 && t.fpscr == 0x00004000) = true := by
  decide +kernel

/-- Invalid operations and NaNs: infinity minus infinity, 0 times infinity, a QNaN operand kept. -/
theorem test_float_invalid :
    after 0xFC221828 (floats 0 0x7FF0000000000000 0x7FF0000000000000 0)
      (fun t => t.readFpr 1 == 0x7FF8000000000000 && t.fpscr == 0xA0811000) = true ∧
    after 0xFC220132 (floats 0 0x7FF0000000000000 0 0)
      (fun t => t.readFpr 1 == 0x7FF8000000000000 && t.fpscr == 0xA0111000) = true ∧
    after 0xFC22182A (floats 0 0x3FF0000000000000 0x7FF8000000000123 0)
      (fun t => t.readFpr 1 == 0x7FF8000000000123 && t.fpscr == 0x00011000) = true := by
  decide +kernel

/-- Conversions: rounding to single with a tie, 2.5 and -2.5 to an integer, 2^31 - 0.5 rounded and
truncated. -/
theorem test_float_convert :
    after 0xFC201818 (floats 0 0 0x3FF0000010000000 0)
      (fun t => t.readFpr 1 == 0x3FF0000000000000 && t.fpscr == 0x82024000) = true ∧
    (fpToInt 0 .nearest 0x4004000000000000).write = some 2 ∧
    (fpToInt 3 .down 0xC004000000000000).write = some 0xFFFFFFFD ∧
    fpToInt 0 .nearest 0x41DFFFFFFFE00000 = ⟨0x00000100, some 0x7FFFFFFF, false, false⟩ ∧
    fpToInt 0 .towardZero 0x41DFFFFFFFE00000 = ⟨0x02000000, some 0x7FFFFFFF, false, true⟩ := by
  decide +kernel

/-- Compares and selection: zeros are equal, a QNaN is unordered, `fcmpo` with a signaling NaN and VE = 1, `fsel` with
-0. -/
theorem test_float_compare :
    after 0xFC821800 (floats 0 0 0x8000000000000000 0) (fun t => getField4 t.cr 1 == 0b0010) = true ∧
    after 0xFC021800 (floats 0 0x7FF8000000000000 0x3FF0000000000000 0)
      (fun t => getField4 t.cr 0 == 0b0001 && t.fpscr == 0x00001000) = true ∧
    after 0xFC021840 (floats 0x80 0x7FF0000000000001 0x3FF0000000000000 0)
      (fun t => getField4 t.cr 0 == 0b0001 && t.fpscr == 0xE1001080) = true ∧
    after 0xFC22192E (floats 0 0x8000000000000000 0x4000000000000000 0x3FF0000000000000)
      (fun t => t.readFpr 1 == 0x3FF0000000000000) = true := by
  decide +kernel

/-- FPSCR instructions: `mtfsfi`, `mtfsb1` of ZX, `mtfsb0` of VX, `mcrfs`. -/
theorem test_float_status :
    after 0xFC00610C (floats 0x90000000 0 0 0) (fun t => t.fpscr == 0) = true ∧
    after 0xFCA0004C (floats 0x10 0 0 0) (fun t => t.fpscr == 0xC4000010) = true ∧
    after 0xFC40008C (floats 0xA1000000 0 0 0) (fun t => t.fpscr == 0xA1000000) = true ∧
    after 0xFD0C0080 (floats 0xA00A0000 0 0 0)
      (fun t => getField4 t.cr 2 == 0b1010 && t.fpscr == 0x80020000) = true := by
  decide +kernel

/-- Moves: `fmr`, `fneg`, `fabs`, `fnabs`. -/
theorem test_float_moves :
    after 0xFC201890 (floats 0 0 0x7FF0000000000001 0) (fun t => t.readFpr 1 == 0x7FF0000000000001) = true ∧
    after 0xFC201850 (floats 0 0 0x7FF8000000000000 0) (fun t => t.readFpr 1 == 0xFFF8000000000000) = true ∧
    after 0xFC201A10 (floats 0 0 0x8000000000000000 0) (fun t => t.readFpr 1 == 0) = true ∧
    after 0xFC201910 (floats 0 0 0x3FF0000000000000 0) (fun t => t.readFpr 1 == 0xBFF0000000000000) = true := by
  decide +kernel

/-- Single and double formats (the table of R470 and R471): normalized, denormalized, infinity. -/
theorem test_float_formats :
    doubleOf 0x400921FB = 0x4001243F60000000 ∧ doubleOf 0x00000001 = 0x36A0000000000000 ∧
    doubleOf 0x00400000 = 0x3800000000000000 ∧ doubleOf 0xFF800000 = 0xFFF0000000000000 ∧
    singleOf 0x380FFFFFFFFFFFFF 0 = 0x007FFFFF ∧ singleOf 0x3800000000000000 0 = 0x00400000 := by
  decide +kernel

/-- Floating-point loads and stores. -/
theorem test_float_memory :
    after 0x7C242C2E (({ image with msr := 0x3002 }.writeGpr 4 0x1000).writeGpr 5 4)
      (fun t => t.readFpr 1 == 0x408AACCEE0000000) = true ∧
    after 0xD0240000 (({ image with msr := 0x3002 }.writeGpr 4 0x1000).writeFpr 1 0x3800000000000000)
      (fun t => bytesAt t 0x1000 4 == [0x00, 0x40, 0x00, 0x00]) = true := by
  decide +kernel

/-! ### System instructions and exceptions (96_test_vectors_fp_system.md sections 2.11 to 2.15) -/

/-- Special registers: user `mfxer`, privileged and illegal `mfspr`, `mtspr` of PVR, `mftb`. -/
theorem test_special_registers :
    after 0x7C6102A6 { user with xer := 0xC0000005 } (fun t => t.readGpr 3 == 0xC0000005) = true ∧
    after 0x7C70FAA6 user (fun t => t.exc.srr1 == 0x00045002 && t.pc == 0x700) = true ∧
    after 0x7C73FAA6 start (fun t => t.exc.srr1 == 0x00081002 && t.pc == 0x700) = true ∧
    after 0x7C7F43A6 (start.writeGpr 3 7) (fun t => t.pc == 0x2004 && t.cfg == start.cfg) = true ∧
    after 0x7C6C42E6 { user with tb := 0x1FFFFFFF0 } (fun t => t.readGpr 3 == 0xFFFFFFF0) = true ∧
    after 0x7C6D42E6 { user with tb := 0x1FFFFFFF0 } (fun t => t.readGpr 3 == 1) = true := by
  decide +kernel

/-- The code mapped at its own physical address by IBAT0, so that a change of MSR[IR] is no implicit branch (R917). -/
def mappedCode : State :=
  { start with mmu := { start.mmu with ibat := start.mmu.ibat.set 0 ⟨0x00000002, 0x00000002⟩ (by decide) } }

/-- `mtmsr` (where the code is mapped, and where it is not), `rfi`, `sc`. -/
theorem test_machine_state :
    after 0x7C600124 (mappedCode.writeGpr 3 0x9032) (fun t => t.msr == 0x9032) = true ∧
    after 0x7C600124 (start.writeGpr 3 0x9032) (fun t => t.msr == 0x9032 && t.pc == 0x2004) = true ∧
    after 0x7C600124 (start.writeGpr 3 0xFFFFFFFF) (fun t => t.msr == 0x0005FF77) = true ∧
    after 0x7C600124 (user.writeGpr 3 0x9032) (fun t => t.exc.srr1 == 0x00045002 && t.msr == 0x1000) = true ∧
    after 0x4C000064 { start with msr := 0x1000, exc := { start.exc with srr0 := 0x3007, srr1 := 0xD032 } }
      (fun t => t.msr == 0xD032 && t.pc == 0x3004) = true ∧
    after 0x44000002 { start with msr := 0xD032, pc := 0x3000 }
      (fun t => t.exc.srr0 == 0x3004 && t.exc.srr1 == 0xD032 && t.msr == 0x1000 && t.pc == 0xC00) = true := by
  decide +kernel

/-- Segment registers. -/
theorem test_segment_registers :
    after 0x7C8301A4 (start.writeGpr 4 0x20001234) (fun t => t.readSr 3 == 0x20001234) = true ∧
    after 0x7C8029E4 ((start.writeGpr 4 0x60000042).writeGpr 5 0xA1234567)
      (fun t => t.readSr 10 == 0x60000042) = true ∧
    after 0x7C802D26 ((start.writeSr 3 0x20001234).writeGpr 5 0x3FFFFFFF)
      (fun t => t.readGpr 4 == 0x20001234) = true := by
  decide +kernel

/-- `lwarx`, then `stwcx.` with and without the reservation, and `lwarx` at an address that is not aligned. -/
theorem test_reservation :
    after 0x7CA01828 (image.writeGpr 3 0x1004)
      (fun t => t.readGpr 5 == 0x44556677 && t.resv && t.resvAddr == 0x80) = true ∧
    after 0x7CC0192D ({ image with resv := true, xer := 0x80000000 }.writeGpr 3 0x1004)
      (fun t => Memory.read t.mem 0x1004 == 0 && getField4 t.cr 0 == 0b0011 && !t.resv) = true ∧
    after 0x7CC0192D (image.writeGpr 3 0x1004)
      (fun t => Memory.read t.mem 0x1004 == 0x44 && getField4 t.cr 0 == 0b0000) = true ∧
    after 0x7CA01828 (image.writeGpr 3 0x1006) (fun t => t.exc.dar == 0x1006 && t.pc == 0x600 && !t.resv) = true := by
  decide +kernel

/-- `dcbz` with the data cache on, and off; `ecowx` with EAR[E] = 0. -/
theorem test_cache_and_external :
    after 0x7C042FEC ({ image with cfg := { image.cfg with hid0 := 0x4000 } }.writeGpr 5 0x100C)
      (fun t => t.dataByte 0x100F == 0 && t.dataByte 0x1020 == 0 && t.pc == 0x2004) = true ∧
    after 0x7C042FEC (image.writeGpr 5 0x102C) (fun t => t.exc.dar == 0x102C && t.pc == 0x600) = true ∧
    after 0x7C642B6C (image.writeGpr 5 0x1000) (fun t => t.exc.dsisr == 0x02100000 && t.pc == 0x300) = true := by
  decide +kernel

/-- An alignment exception's DSISR: `lmw r29,2(r4)`. -/
theorem test_alignment_dsisr :
    after 0xBBA40002 (image.writeGpr 4 0x1000)
      (fun t => t.exc.dsisr == 0x00001FA4 && t.exc.dar == 0x1002 && t.pc == 0x600 && t.readGpr 29 == 0) = true := by
  decide +kernel

/-- The block of section 2.16: DBAT0 maps 256 Kbytes at 0x00200000 to 0x01040000, and not the byte after it. -/
theorem test_block_translation :
    let s : State := { start with
      msr := 0x1012
      mmu := { start.mmu with dbat := start.mmu.dbat.set 0 ⟨0x00200007, 0x01040012⟩ (by decide) } }
    (s.translate .load 0x00223456).1 = .mapped 0x01063456 0b0010 ∧ (s.translate .store 0x0023FFFF).1 =
      .mapped 0x0107FFFF 0b0010 ∧ (batHits s.mmu.dbat false 0x00240000).length = 0 := by
  decide +kernel

/-- The page of section 2.16: the PTE at 0x00108C40 maps 0x30005678 to 0x00ABC678; a store sets R and C. -/
theorem test_page_translation :
    let s : State := { start with
      msr := 0x1012
      mmu := { start.mmu with sdr1 := 0x00100000, sr := start.mmu.sr.set 3 0x20001234 (by decide) }
      mem := Memory.writeBytes [] 0x00108C40 [0x80, 0x09, 0x1A, 0x00, 0x00, 0xAB, 0xC0, 0x12] }
    (s.translate .load 0x30005678).1 = .mapped 0x00ABC678 0b0010 ∧
      Memory.read (s.translate .load 0x30005678).2.mem 0x00108C46 = 0xC1 ∧
      Memory.read (s.translate .store 0x30005678).2.mem 0x00108C47 = 0x92 ∧
      (s.translate .load 0x30006678).1 = .fail .pageFault := by
  decide +kernel

/-- Time: the tick from 0 latches the decrementer condition; TB wraps. -/
theorem test_ticks :
    ({ start with dec := 2 }.tick 3).dec = 0xFFFFFFFF ∧ ({ start with dec := 2 }.tick 3).latches.decPending = true ∧
    ({ start with dec := 2 }.tick 2).latches.decPending = false ∧
    ({ start with tb := 0xFFFFFFFFFFFFFFFF }.tick 1).tb = 0 := by
  decide +kernel

/-- The first step after reset runs the word at the reset vector: `addi r3,r0,-1`. -/
theorem test_first_step :
    afterStep (State.reset.withFetchWord 32 0x3860FFFF) (fun t => t.readGpr 3 == 0xFFFFFFFF && t.pc == 0xFFF00104) =
      true := by
  decide +kernel

/-- The decrementer exception at a boundary (section 2.15), and a trace exception after `b` with MSR[BE] = 1. -/
theorem test_step_exceptions :
    afterStep { start with msr := 0x9002, pc := 0x3024, latches := { start.latches with decPending := true } }
      (fun t => t.exc.srr0 == 0x3024 && t.exc.srr1 == 0x9002 && t.pc == 0x900 && !t.latches.decPending) = true ∧
    afterStep ({ start with msr := 0x1202 }.withFetchWord 32 0x48000008)
      (fun t => t.exc.srr0 == 0x2008 && t.exc.srr1 == 0x40081202 && t.pc == 0xD00) = true := by
  decide +kernel


/-! ### The hypotheses of the statements, met by a state and operands -/

/-- `addi r3,r0,-1` at 0x2000 is the next instruction. -/
def loaded : State := start.withFetchWord 32 0x3860FFFF

/-- The image with the data and instruction caches on and its second block in the data cache, modified. -/
def cached : State :=
  { image with
    cfg := { image.cfg with hid0 := 0xC000 }
    dcache := [⟨0x80, Vector.replicate 32 0xA5, .modified⟩] }

/-- The image seen through DBAT0, which maps 0x00200000 to 0x00000000 in write-back mode. -/
def blocks : State :=
  { image with
    msr := 0x1012, cfg := { image.cfg with hid0 := 0x4000 }
    mmu := { image.mmu with dbat := image.mmu.dbat.set 0 ⟨0x00200007, 0x00000012⟩ (by decide) } }

/-- Data translation with an empty page table. -/
def unmapped : State := { start with msr := 0x1012, mmu := { start.mmu with sdr1 := 0x00100000 } }

/-- Data translation on, segment 0 a direct-store segment. -/
def direct : State :=
  { image with msr := 0x3012, mmu := { image.mmu with sr := image.mmu.sr.set 0 0x80000123 (by decide) } }

/-- The page of section 2.16 in a state with data translation on: the PTE at 0x00108C40, all of memory RAM, the data
cache on. -/
def pages : State := { start with
  msr := 0x1012, cfg := { start.cfg with hid0 := 0x4000 }
  mmu := { start.mmu with sdr1 := 0x00100000, sr := start.mmu.sr.set 3 0x20001234 (by decide) }
  mem := Memory.writeBytes [] 0x00108C40 [0x80, 0x09, 0x1A, 0x00, 0x00, 0xAB, 0xC0, 0x12] }

/-- That page's entry in the TLB, not yet marked changed. -/
def pageEntry : TlbEntry := ⟨5, 0, 0x001234, 0x00ABC, false, 2, 2⟩

/-- A memory map with ROM, a device and a hole above a quarter of RAM. -/
def mapped : State := { image with
  map := [⟨0x2000000, 0x3FFFFFF, .rom⟩, ⟨0x4000000, 0x5FFFFFF, .device⟩, ⟨0x6000000, 0x7FFFFFF, .hole⟩] }

/-- Floating point on, at the image. -/
def fpImage : State := { image with msr := 0x3002 }

/-- The external access enabled with resource ID 5. -/
def external : State := { image with cfg := { image.cfg with ear := 0x80000005 } }

/-- A step that takes no exception at its boundary, fetches and decodes. -/
theorem witness_StepRunsDecodedInstruction :
    let s1 := loaded.boundary.1
    let s3 := (s1.fetchPhys 1 (s1.mungeWord 0x2000)).2
    loaded.latches.checkstop = false ∧ loaded.boundary = (s1, false) ∧ s1.moved = false ∧
      { loaded with moved := true }.boundary = ({ s1 with moved := true }, false) ∧
      s1.translate .fetch s1.pc = (.mapped 0x2000 1, s1) ∧ s1.iabrMatch = false ∧
      s1.fetchPhys 1 (s1.mungeWord 0x2000) = ([0x38, 0x60, 0xFF, 0xFF], s3) ∧ s3.tea = false ∧
      decode (BitVec.ofNat 32 (natOfBytes [0x38, 0x60, 0xFF, 0xFF])) = .ok (.addi 3 0 0xFFFF) := by
  decide +kernel

/-- A quotient that exists, the signed one that does not, a zero divisor. -/
theorem witness_Divisions :
    let s := (start.writeGpr 4 0x80000000).writeGpr 5 2
    let t := (start.writeGpr 4 0x80000000).writeGpr 5 0xFFFFFFFF
    (s.readGpr 5 ≠ 0 ∧ ¬(s.readGpr 4 = 0x80000000 ∧ s.readGpr 5 = 0xFFFFFFFF)) ∧
      (t.readGpr 4 = 0x80000000 ∧ t.readGpr 5 = 0xFFFFFFFF) ∧ start.readGpr 5 = 0 := by
  decide +kernel

/-- Both values of BO[2]. -/
theorem witness_BranchInstructions :
    (20 : BitVec 5).getMsbD 2 = true ∧ (16 : BitVec 5).getMsbD 2 = false := by decide

/-- A trap taken (equal, and less at the boundary of signed and unsigned), and one not taken. -/
theorem witness_TrapInstructions :
    let s := (start.writeGpr 4 0x80000000).writeGpr 5 0x7FFFFFFF
    ((4 : BitVec 5).getMsbD 2 = true ∧ (start.readGpr 4).toInt = (start.readGpr 5).toInt) ∧
    ((16 : BitVec 5).getMsbD 0 = true ∧ (s.readGpr 4).toInt < (s.readGpr 5).toInt ∧
      ¬(s.readGpr 4).toNat < (s.readGpr 5).toNat) ∧
    ∀ k : Fin 5, (0 : BitVec 5).getMsbD k = false := by
  decide +kernel

/-- `rfi` in supervisor mode, and an entry that `rfi` undoes. -/
theorem witness_SystemCallAndReturn : start.msrPR = false ∧
    ((beBit ((start.msr &&& 0xFFFF0000) ||| (start.exc.srr1 &&& 0x0000FF77)) 20 ||
      beBit ((start.msr &&& 0xFFFF0000) ||| (start.exc.srr1 &&& 0x0000FF77)) 23) && beBit start.fpscr 1) = false ∧
    start.reservedZero ∧ beBit start.fpscr 1 = false ∧ (0x00020000 : Word) &&& 0x0000FFFF = 0 := by
  unfold State.reservedZero; decide +kernel

/-- User mode, an instruction of the list, and SPR 26 (SRR0); a word that is no instruction; SPR 1011, 284 and TBR 1
are not in their lists. -/
theorem witness_PrivilegedAndIllegal : user.msrPR = true ∧
    Instr.tlbsync ∈ [Instr.rfi, .mtmsr 3, .mfmsr 3, .mtsr 3 0, .mtsrin 3 4, .mfsr 3 0, .mfsrin 3 4, .tlbie 3,
      .tlbsync, .dcbi 3 4] ∧
    (26 : BitVec 10).getLsbD 4 = true ∧ Instr.mfspr 3 26 false ∈ [Instr.mtspr 3 26 false, .mfspr 3 26 false] ∧
    (match decode 0 with | .ok _ => false | .error _ => true) = true ∧
    ¬(start.msrPR = true ∧ (1011 : BitVec 10).getLsbD 4 = true) ∧ (1011 : BitVec 10).toNat ∉ writableSprs ∧
    ¬(start.msrPR = true ∧ (284 : BitVec 10).getLsbD 4 = true) ∧ (284 : BitVec 10).toNat ∉ readableSprs ∧
    (1 : BitVec 10) ≠ 268 ∧ (1 : BitVec 10) ≠ 269 := by
  decide +kernel

/-- SE and BE, a branch and none, `rfi`, with and without an exception taken; `sc` in user mode. -/
theorem witness_TraceException :
    let se : State := { start with msr := 0x1402 }
    let be : State := { start with msr := 0x1202 }
    let traced (s : State) (i : Instr) : Bool :=
      (beBit s.msr 21 && i != .rfi) || (beBit s.msr 22 && (s.branches i).isSome)
    start.took = false ∧ { start with took := true }.took = true ∧ traced se (.lwz 3 4 0) = true ∧
      traced se .rfi = false ∧ traced be (.b 2 false false) = true ∧ traced be (.lwz 3 4 0) = false ∧
      start.branches (.bclr 20 0 false) = some true ∧ beBit start.msr 17 = false ∧ beBit user.msr 17 = true ∧
      loadsStorage (.lwz 3 4 0) = true ∧ storesStorage (.dcbz 3 4) = true ∧ stringIndexed (.lswx 3 4 5 false) = true ∧
      writesMmu (.mtspr 3 1008 false) = true ∧ writesMmu (.mtspr 3 8 false) = false := by
  decide +kernel

/-- FE0 and FE1 with an enabled exception and without one; what `rfi` and `mtmsr` restore has FE0. -/
theorem witness_FpEnabledException :
    let on : State := { floats 0x42000008 0 0 0 with msr := 0x3902 }
    let s : State := { start with fpscr := 0x42000008, exc := { start.exc with srr1 := 0x00000800 } }
    primary (encode (.fadd 1 2 3 false)) = 63 ∧ primary (encode (.fadds 1 2 3 false)) = 59 ∧ beBit on.msr 18 = true ∧
      (beBit on.msr 20 || beBit on.msr 23) = true ∧ beBit on.fpscr 1 = true ∧
      (match exec (.fadd 1 2 3 false) { on with msr := on.msr &&& 0xFFFFF6FF } with
        | .next t => beBit t.fpscr 1
        | .fault _ => false
        | .refused _ => false) = true ∧
      (match exec (.fadd 1 2 3 false) { floats 0 0 0 0 with msr := 0x3002 } with
        | .next t => !beBit t.fpscr 1
        | .fault _ => false
        | .refused _ => false) = true ∧
      s.msrPR = false ∧ beBit s.fpscr 1 = true ∧ beBit ((s.msr &&& 0xFFFF0000) ||| (s.exc.srr1 &&& 0x0000FF77)) 20 ∧
      ((s.writeGpr 3 0x00001802).readGpr 3 &&& 0x0005FF77) = 0x00001802 ∧
      beBit (0x00001802 : Word) 20 = true := by
  decide +kernel

/-- A matching IABR, a page fault, guarded storage through a block, and a segment with T = 1. -/
theorem witness_FetchExceptions :
    let brk : State := { loaded with cfg := { loaded.cfg with iabr := 0x2002 } }
    let miss : State := { start with msr := 0x1022 }
    let guarded : State := { miss with
      mmu := { miss.mmu with ibat := miss.mmu.ibat.set 0 ⟨0x00000002, 0x0000000A⟩ (by decide) } }
    let closed : State := { miss with
      mmu := { miss.mmu with ibat := miss.mmu.ibat.set 0 ⟨0x00000002, 0x00000000⟩ (by decide) } }
    let seg : State := { miss with mmu := { miss.mmu with sr := miss.mmu.sr.set 0 0x80000000 (by decide) } }
    let noExec : State := { miss with mmu := { miss.mmu with sr := miss.mmu.sr.set 0 0x10000000 (by decide) } }
    (brk.latches.checkstop = false ∧ brk.boundary = (brk, false) ∧ brk.moved = false ∧
      brk.translate .fetch brk.pc = (.mapped 0x2000 1, brk) ∧ beBit brk.cfg.iabr 30 = true ∧
      brk.cfg.iabr &&& 0xFFFFFFFC = brk.pc &&& 0xFFFFFFFC ∧
      beBit brk.cfg.iabr 31 = beBit brk.msr 26) ∧
    (miss.boundary = (miss, false) ∧ (miss.translate .fetch miss.pc).1 = .fail .pageFault) ∧
    (guarded.boundary = (guarded, false) ∧ (guarded.translate .fetch guarded.pc).1 = .fail .noExecute) ∧
    (closed.boundary = (closed, false) ∧ (closed.translate .fetch closed.pc).1 = .fail .protection) ∧
    (noExec.boundary = (noExec, false) ∧ batHits noExec.mmu.ibat noExec.msrPR noExec.pc = [] ∧
      beBit (noExec.readSr (noExec.pc.extractLsb' 28 4)) 3 = true) ∧
    (seg.boundary = (seg, false) ∧ beBit seg.msr 26 = true ∧ batHits seg.mmu.ibat seg.msrPR seg.pc = [] ∧
      batIllegal seg.mmu.ibat seg.msrPR seg.pc = false ∧ beBit (seg.readSr (seg.pc.extractLsb' 28 4)) 0 = true) := by
  decide +kernel

/-- `mtmsr` that enables no pending exception; segment register writes. -/
theorem witness_StatusAndSegmentMoves :
    let s := start.writeGpr 3 0x9032
    s.msrPR = false ∧
      ((beBit (s.readGpr 3 &&& 0x0005FF77) 20 || beBit (s.readGpr 3 &&& 0x0005FF77) 23) && beBit s.fpscr 1) =
        false := by
  decide +kernel

/-- LR in user mode; SDR1 in supervisor mode; SIA while MMCR0[ENINT] is 0. -/
theorem witness_SprMovesComplete : (user.msrPR = false ∨ (8 : BitVec 10).getLsbD 4 = false) ∧
    (8 : BitVec 10).toNat ∈ writableSprs ∧ (8 : BitVec 10).toNat ∈ readableSprs ∧
    start.msrPR = false ∧ (25 : BitVec 10).toNat ∈ writableSprs ∧ (25 : BitVec 10).toNat ∈ readableSprs ∧
    (955 : BitVec 10).toNat ∈ writableSprs ∧ (955 : BitVec 10).toNat ∈ readableSprs ∧
    beBit start.pm.mmcr0 5 = false := by
  decide +kernel

/-- A readable register, and two different ones. -/
theorem witness_SprFrames : start.msrPR = false ∧ 272 ∈ readableSprs ∧ 273 ∈ writableSprs ∧ 273 ≠ 272 ∧
    273 ≠ 952 := by decide +kernel

/-- A memory map that names no region is RAM everywhere. -/
theorem ram_everywhere {s : State} (h : s.map = []) (b : BitVec 27) : s.kindOf b = .ram := by
  simp [State.kindOf, h]

/-- What makes an operand plain where the data cache is off and all memory is RAM. -/
theorem plain_off {s : State} {u : Use} {ea pa : Word} {wimg : BitVec 4} {n : Nat} (hm : Memory.wf s.mem = true)
    (hd : s.dcacheOn = false) (hr : s.map = []) (ht : s.translate u ea = (.mapped pa wimg, s)) (ho : oneAccess ea n) :
    s.plainOperand u ea pa wimg n :=
  ⟨⟨hm, fun h => absurd h (by simp [hd])⟩,
    ⟨ht, .inl (ram_everywhere hr _), fun h => absurd h (by simp [hd])⟩, ho⟩

/-- Operands of each width in memory, the last that fits a word, and one that starts a word. -/
theorem witness_plainOperand : image.plainOperand .load 0x1003 0x1003 3 1 ∧
    image.plainOperand .load 0x1002 0x1002 3 2 ∧ image.plainOperand .load 0x1004 0x1004 3 4 ∧
    image.plainOperand .store 0x1003 0x1003 3 1 ∧ image.plainOperand .store 0x1002 0x1002 3 2 ∧
    image.plainOperand .store 0x1004 0x1004 3 4 :=
  ⟨plain_off (by decide) (by decide) rfl (by decide +kernel) (.inl (by decide)),
    plain_off (by decide) (by decide) rfl (by decide +kernel) (.inl (by decide)),
    plain_off (by decide) (by decide) rfl (by decide +kernel) (.inl (by decide)),
    plain_off (by decide) (by decide) rfl (by decide +kernel) (.inl (by decide)),
    plain_off (by decide) (by decide) rfl (by decide +kernel) (.inl (by decide)),
    plain_off (by decide) (by decide) rfl (by decide +kernel) (.inl (by decide))⟩

/-- The memory system is sound with a modified block in the data cache, and with the cache on and empty. -/
theorem witness_dataSound : cached.dataSound ∧ blocks.dataSound := by
  refine ⟨⟨by decide, fun _ => ⟨by unfold State.dcacheDistinct; decide, fun l hl hm => ?_,
      fun l _ _ => ram_everywhere rfl _⟩⟩,
    ⟨by decide, fun _ => ⟨by unfold State.dcacheDistinct; decide, fun l hl _ =>
      absurd (show l ∈ [] from hl) List.not_mem_nil, fun l _ _ => ram_everywhere rfl _⟩⟩⟩
  exact absurd (by rw [List.mem_singleton.mp (show l ∈ [_] from hl)]) hm

/-- Operands in a modified block of the data cache, and through a block translation. -/
theorem witness_plainOperand_cached : cached.plainOperand .load 0x1004 0x1004 3 4 ∧
    cached.plainOperand .store 0x1004 0x1004 3 4 ∧ blocks.plainOperand .load 0x00201004 0x1004 2 4 ∧
    blocks.plainOperand .store 0x00201004 0x1004 2 4 :=
  ⟨⟨witness_dataSound.1, ⟨by decide +kernel, .inl (ram_everywhere rfl _), fun _ => by decide⟩, .inl (by decide)⟩,
    ⟨witness_dataSound.1, ⟨by decide +kernel, .inl (ram_everywhere rfl _), fun _ => by decide⟩, .inl (by decide)⟩,
    ⟨witness_dataSound.2, ⟨by decide +kernel, .inl (ram_everywhere rfl _), fun _ => by decide⟩, .inl (by decide)⟩,
    ⟨witness_dataSound.2, ⟨by decide +kernel, .inl (ram_everywhere rfl _), fun _ => by decide⟩, .inl (by decide)⟩⟩

/-- The address of the loads and stores: r4 = 0x1000, displacement 4 or r5 = 4, with rA = 0 too. -/
theorem witness_addresses :
    let s := (image.writeGpr 4 0x1000).writeGpr 5 4
    s.readGpr 4 + (4 : BitVec 16).signExtend 32 = 0x1004 ∧ s.readGpr 4 + s.readGpr 5 = 0x1004 ∧
      (if (0 : Reg) = 0 then 0 else s.readGpr 0) + (0x1004 : BitVec 16).signExtend 32 = 0x1004 := by
  decide +kernel

/-- Invalid forms: rA = 0, rA = rD, rA among the registers of `lmw` and `lswi`, no bytes for `lswx`. -/
theorem witness_InvalidFormsComplete : image.bareData ∧ (31 : Reg) ≤ 31 ∧
    ((if (31 : Reg) = 0 then 0 else image.readGpr 31) + (0x1000 : BitVec 16).signExtend 32).toNat % 4 = 0 ∧
    inRegRange 31 0 (stringImmRegs 8) = true ∧ stringCrosses 0 (stringImm 8) = false ∧
    image.msrLE = false ∧ image.xer.toNat % 128 = 0 :=
  ⟨⟨by unfold State.bareAccess; decide +kernel, ram_everywhere rfl⟩, by decide +kernel⟩

/-- `lwzx`, `mtspr` of LR and `stwcx.` with a reservation complete, so their forms with the other bit 31 do. -/
theorem witness_RecordBitFreesCr0 : movesFetch 8 = false ∧
    [Instr.lwzx 3 0 5 false, .mtspr 3 8 false, .stwcxRec 3 0 5 true].all (fun i =>
      match exec i { image with resv := true } with
      | .next _ => true
      | .fault _ => false
      | .refused _ => false) = true := by
  decide +kernel

/-- The multiple and string loads and stores: r31 alone, 5 bytes into r30 and r31, 32 bytes (NB = 0), XER count
127. -/
theorem witness_MultipleAndString :
    let s := ({ image with xer := 127 }.writeGpr 4 0x1000).writeGpr 5 0x1000
    s.bareData ∧ (4 : Reg) < 31 ∧ (s.readGpr 4 + (0 : BitVec 16).signExtend 32).toNat % 4 = 0 ∧
      stringCrosses (s.readGpr 4) 5 = false ∧ inRegRange 30 4 ((5 + 3) / 4) = false ∧
      stringCrosses (s.readGpr 4) 32 = false ∧ inRegRange 6 4 ((32 + 3) / 4) = false ∧
      0 < s.xer.toNat % 128 ∧ stringCrosses (0 + s.readGpr 5) (s.xer.toNat % 128) = false ∧
      inRegRange 6 0 ((127 + 3) / 4) = true ∧ inRegRange 6 4 ((4 + 3) / 4) = false :=
  ⟨⟨by unfold State.bareAccess; decide +kernel, ram_everywhere rfl⟩, by decide +kernel⟩

/-- Addresses that are no multiple of 4, little-endian mode, a string across the boundary of R150 g, a direct-store
segment, and `dcbz` with the cache off. -/
theorem witness_MisalignedAccessesTrap :
    ((image.writeGpr 4 0x1000).readGpr 4 + (3 : BitVec 16).signExtend 32).toNat % 4 ≠ 0 ∧
      { image with msr := 0x1003 }.msrLE = true ∧ stringCrosses 0x1FFD 8 = true ∧
      (0 + (image.writeGpr 5 0x1001).readGpr 5).toNat % 4 ≠ 0 ∧ fpImage.msrFP = true ∧
      direct.msrFP = true ∧ (direct.directSegment 0x1004).isSome = true ∧ image.dcacheOn = false ∧
      image.translate .cacheStore 0x1000 = (.mapped 0x1000 3, image) := by
  decide +kernel

/-- A page fault for a load and a store, a protection violation of each in a block, a data breakpoint. -/
theorem witness_FailedDataAccessTakesDsi :
    let brk : State := { start with cfg := { start.cfg with dabr := 0x00001003 } }
    let readOnly : State := { blocks with
      mmu := { blocks.mmu with dbat := blocks.mmu.dbat.set 0 ⟨0x00200007, 0x00000011⟩ (by decide) } }
    let closed : State := { blocks with
      mmu := { blocks.mmu with dbat := blocks.mmu.dbat.set 0 ⟨0x00200007, 0x00000010⟩ (by decide) } }
    oneAccess 0x1004 4 ∧ oneAccess 0x00201008 8 ∧ (0x00201008 : Word).toNat % 4 = 0 ∧
    unmapped.translate .load 0x1004 = (.fail .pageFault, (unmapped.translate .load 0x1004).2) ∧
    unmapped.translate .store 0x1004 = (.fail .pageFault, (unmapped.translate .store 0x1004).2) ∧
    readOnly.translate .store 0x00201004 = (.fail .protection, readOnly) ∧
    closed.translate .load 0x00201004 = (.fail .protection, closed) ∧
    { closed with msr := 0x3012 }.msrFP = true ∧
    { closed with msr := 0x3012 }.translate .fpLoad 0x00201008 = (.fail .protection, { closed with msr := 0x3012 }) ∧
    brk.translate .load 0x1004 = (.fail .breakpoint, brk) := by
  unfold oneAccess; decide +kernel

/-- A segment with T = 1, an aligned address in it, EAR[E] = 1, supervisor mode. -/
theorem witness_DirectStoreAccesses :
    let s : State := { direct with cfg := { direct.cfg with ear := 0x80000000 } }
    (s.msrDR = true ∧ batIllegal s.mmu.dbat s.msrPR 0x1004 = false ∧ batHits s.mmu.dbat s.msrPR 0x1004 = [] ∧
      beBit (s.readSr ((0x1004 : Word).extractLsb' 28 4)) 0 = true) ∧
    s.msrLE = false ∧ s.cfg.dabr &&& 3 = 0 ∧ s.directSegment 0x1004 = some 0x80000123 ∧ (0x1004 : Word).toNat % 4 = 0 ∧
      beBit s.cfg.ear 0 = true ∧ s.msrPR = false := by
  decide +kernel

/-- A boundary without snoops; addresses of RAM, ROM, a device and a hole, the last word before a region and its
first. -/
theorem witness_MemoryMap : mapped.bareAccess ∧ (Input.quiet mapped.pins).snoops = [] ∧ oneAccess 0x1004 4 ∧
    mapped.kindOf ((0x3FFFFFFC : Word).extractLsb' 5 27) = .ram ∧
    mapped.kindOf ((0x40000000 : Word).extractLsb' 5 27) = .rom ∧
    mapped.kindOf ((0xBFFFFFFC : Word).extractLsb' 5 27) = .device ∧
    mapped.kindOf ((0xC0000000 : Word).extractLsb' 5 27) = .hole := by
  unfold State.bareAccess oneAccess; decide +kernel

/-- `lwarx` and `stwcx.` with the cache off, and in a modified block. -/
theorem witness_ReservationPair : (0x1004 : Word).toNat % 4 = 0 ∧ image.plainOperand .lwarx 0x1004 0x1004 3 4 ∧
    image.plainOperand .stwcx 0x1004 0x1004 3 4 ∧ cached.plainOperand .lwarx 0x1004 0x1004 3 4 ∧
    cached.plainOperand .stwcx 0x1004 0x1004 3 4 :=
  ⟨by decide, plain_off (by decide) (by decide) rfl (by decide +kernel) (.inl (by decide)),
    plain_off (by decide) (by decide) rfl (by decide +kernel) (.inl (by decide)),
    ⟨witness_dataSound.1, ⟨by decide +kernel, .inl (ram_everywhere rfl _), fun _ => by decide⟩, .inl (by decide)⟩,
    ⟨witness_dataSound.1, ⟨by decide +kernel, .inl (ram_everywhere rfl _), fun _ => by decide⟩, .inl (by decide)⟩⟩

/-- The cache instructions on a block in the cache, with both caches on, at the first and the last byte of the
block. -/
theorem witness_CacheInstructions : cached.dataSound ∧ cached.dcacheOn = true ∧ cached.icacheOn = true ∧
    cached.msrPR = false ∧ cached.plainStorage .dcbz 0x1000 0x1000 3 ∧
    cached.plainStorage .cacheLoad 0x101F 0x101F 3 ∧
    cached.plainStorage .cacheStore 0x101F 0x101F 3 ∧ (batHits cached.mmu.dbat cached.msrPR 0x1000).length ≤ 1 ∧
    batIllegal cached.mmu.dbat cached.msrPR 0x1000 = false ∧ ∀ b, cached.kindOf b = .ram ∨ cached.kindOf b = .rom :=
  ⟨witness_dataSound.1, by decide, by decide, by decide,
    ⟨by decide +kernel, .inl (ram_everywhere rfl _), fun _ => by decide⟩,
    ⟨by decide +kernel, .inl (ram_everywhere rfl _), fun _ => by decide⟩,
    ⟨by decide +kernel, .inl (ram_everywhere rfl _), fun _ => by decide⟩, by decide, by decide,
    fun _ => .inl (ram_everywhere rfl _)⟩

/-- A touch that is a no-op: the data cache locked. -/
theorem witness_CacheInstructions_touch :
    let s : State := { cached with cfg := { cached.cfg with hid0 := 0xD000 } }
    s.dataSound ∧ s.dcacheLocked = true ∧ (batHits s.mmu.dbat s.msrPR 0x1000).length ≤ 1 ∧
      batIllegal s.mmu.dbat s.msrPR 0x1000 = false :=
  ⟨witness_dataSound.1, by decide, by decide, by decide⟩

/-- Supervisor mode, with an entry of the set and one of another. -/
theorem witness_TlbAndOrderingInstructions :
    let s : State := { start with dtlb := [⟨5, 0, 0, 0, false, 2, 2⟩, ⟨6, 0, 0, 0, false, 2, 2⟩] }
    s.msrPR = false ∧ (s.invalidateTlb 5).dtlb = [⟨6, 0, 0, 0, false, 2, 2⟩] := by
  decide +kernel

/-- A processor that snoops: a kill that hits the reserved block, and one that is not global. -/
theorem witness_SnoopClearsReservation :
    let s : State := { image with resv := true, resvAddr := 0x80 }
    s.latches.checkstop = false ∧ s.latches.halted = false ∧
      (s.otherMaster ⟨.kill, true, 0x101F, []⟩).resv = false ∧ (s.otherMaster ⟨.kill, false, 0x101F, []⟩).resv = true ∧
      (s.otherMaster ⟨.kill, true, 0x1020, []⟩).resv = true := by
  decide +kernel

/-- `eciwx` and `ecowx` with EAR[E] = 1, and 0. -/
theorem witness_ExternalControl : (0x1004 : Word).toNat % 4 = 0 ∧ beBit external.cfg.ear 0 = true ∧
    external.translate .eciwx 0x1004 = (.mapped 0x1004 3, external) ∧
    external.translate .ecowx 0x1004 = (.mapped 0x1004 3, external) ∧ beBit image.cfg.ear 0 = false := by
  decide +kernel

/-- MSR[FP] = 0, and one instruction of each opcode that needs it. -/
theorem witness_FpUnavailable : start.msrFP = false ∧
    [Instr.lfs 1 4 0, .stfdu 1 4 8, .fadds 1 2 3 false, .mtfsfi 0 1 false, .stfiwx 1 4 5 false, .lfsx 1 4 5 false].all
      needsFp = true := by
  decide +kernel

/-- Floating point on and its exceptions off; 1 and 2 are single-representable, pi is not. -/
theorem witness_fpQuiet : fpImage.fpQuiet ∧ (floats 0 0x3FF0000000000000 0x4000000000000000 0).fpQuiet ∧
    singleRepresentable 0x3FF0000000000000 (unpack 0x3FF0000000000000) = true ∧
    singleRepresentable 0x4000000000000000 (unpack 0x4000000000000000) = true ∧
    singleRepresentable 0x400921FB54442D18 (unpack 0x400921FB54442D18) = false := by
  unfold State.fpQuiet; decide +kernel

/-- Numbers: zero, and minus 3 halves; a double of an exponent that is not 2047. -/
theorem witness_FpExactOperations : (FpVal.zero true).isNumber 0 ∧ (FpVal.num true 3 (-1)).isNumber (-3 / 2) ∧
    ((0x3FF8000000000000 : Dword).extractLsb' 52 11).toNat ≠ 2047 := by
  refine ⟨rfl, ?_, by decide⟩
  simp only [FpVal.isNumber]
  norm_num

/-- A unit of two, and a tie in it. -/
theorem witness_RoundingToMultiple : 0 < 1 ∧ 2 * (3 % 2 ^ 1) = 2 ^ 1 := by decide

/-- The double 1 stands for 1, its opposite for -1. -/
theorem unpack_one : (unpack 0x3FF0000000000000).isNumber 1 ∧ (unpack 0xBFF0000000000000).isNumber (-1) := by
  rw [show unpack 0x3FF0000000000000 = .num false (2 ^ 52) (-52) from by decide +kernel,
    show unpack 0xBFF0000000000000 = .num true (2 ^ 52) (-52) from by decide +kernel]
  constructor <;> simp only [FpVal.isNumber] <;> norm_num

/-- IEEE mode with OE = UE = 0 and operands that stand for numbers, with a sum that is 0. -/
theorem witness_ArithmeticRoundsExactValue : beBit (0 : Word) 25 = false ∧ beBit (0 : Word) 26 = false ∧
    beBit (0 : Word) 29 = false ∧ (unpack 0x3FF0000000000000).isNumber 1 ∧ (unpack 0xBFF0000000000000).isNumber (-1) ∧
    (-1 : Rat) ≠ 0 ∧ (1 : Rat) + -1 = 0 :=
  ⟨by decide, by decide, by decide, unpack_one.1, unpack_one.2, by norm_num, by norm_num⟩

/-- Operands whose reciprocals lie in the range of normalized singles, in its middle and in its last binade, and a positive
one. -/
theorem witness_EstimatesWithinBounds : beBit (0 : Word) 29 = false ∧ (unpack 0x3FF0000000000000).isNumber 1 ∧
    (1 : Rat) ≠ 0 ∧ (2 : Rat) ^ (-126 : Int) ≤ |1 / 1| ∧
    |(1 : Rat) / 1| ≤ (2 - (2 : Rat) ^ (-23 : Int)) * (2 : Rat) ^ (127 : Int) ∧ (0 : Rat) < 1 ∧
    (unpack 0x3800000000000000).isNumber ((2 : Rat) ^ (-127 : Int)) ∧
    (2 : Rat) ^ (-126 : Int) ≤ |1 / (2 : Rat) ^ (-127 : Int)| ∧
    |1 / (2 : Rat) ^ (-127 : Int)| ≤ (2 - (2 : Rat) ^ (-23 : Int)) * (2 : Rat) ^ (127 : Int) := by
  refine ⟨by decide, unpack_one.1, by norm_num, by norm_num, by norm_num, by norm_num, ?_, ?_, ?_⟩
  · rw [show unpack 0x3800000000000000 = .num false (2 ^ 52) (-179) from by decide +kernel]
    simp only [FpVal.isNumber]
    norm_num
  · norm_num
  · norm_num

/-- Integers in range, and one beyond each end. -/
theorem witness_FpToInteger : beBit (0 : Word) 29 = false ∧ (unpack 0xBFF0000000000000).isNumber (-1) ∧
    Rounding.towardZero.toInteger (-1) (-1) ∧
    (fpToInt 0 .nearest 0x41E0000000000000).exc = beMask 23 ∧ (fpToInt 0 .nearest 0xC1E0000000000001).exc = beMask 6 ∧
    (fpToInt 0 .down 0xC1E0000000000001).exc = beMask 23 := by
  refine ⟨by decide, unpack_one.2, ?_, by decide +kernel, by decide +kernel, by decide +kernel⟩
  simp only [Rounding.toInteger]
  norm_num

/-- IEEE mode; a NaN; two doubles that stand for numbers, the smaller 0 and the larger the least denormalized one. -/
theorem witness_FpCompareOrdersValues : fpNI 0 = false ∧ isNan 0x7FF8000000000000 = true ∧
    (unpack 0).isNumber 0 ∧ ∃ q : Rat, (unpack 0x0000000000000001).isNumber q ∧ 0 < q := by
  refine ⟨by decide, by decide, ?_, ?_⟩
  · rw [show unpack 0 = .zero false from by decide +kernel]
    exact rfl
  · refine ⟨(2 : Rat) ^ (-1074 : Int), ?_, by positivity⟩
    rw [show unpack 0x0000000000000001 = .num false 1 (-1074) from by decide +kernel]
    simp [FpVal.isNumber]

/-- Floating-point operands of one word and of an aligned double word. -/
theorem witness_FpLoads_FpStores : fpImage.msrFP = true ∧ fpImage.plainOperand .fpLoad 0x1004 0x1004 3 4 ∧
    fpImage.plainOperand .fpLoad 0x1008 0x1008 3 8 ∧ fpImage.plainOperand .fpStore 0x1004 0x1004 3 4 ∧
    fpImage.plainOperand .fpStore 0x1008 0x1008 3 8 ∧ fpImage.fprIsSingle 1 = false ∧
    (fpImage.putFpr true 1 0).fprIsSingle 1 = true ∧
    (fpImage.putFpr true 1 0).plainOperand .fpStore 0x1004 0x1004 3 4 :=
  ⟨by decide, plain_off (by decide) (by decide) rfl (by decide +kernel) (.inl (by decide)),
    plain_off (by decide) (by decide) rfl (by decide +kernel) (.inr (by decide)),
    plain_off (by decide) (by decide) rfl (by decide +kernel) (.inl (by decide)),
    plain_off (by decide) (by decide) rfl (by decide +kernel) (.inr (by decide)), by decide, by decide,
    plain_off (by decide) (by decide) rfl (by decide +kernel) (.inl (by decide))⟩

/-- Real addressing of both kinds, with no BAT hit and with one; a page found on a TLB miss, one that has no entry, a
TLB hit that needs no C, one that does, with its entry in the table and without. -/
theorem witness_PageTranslation :
    let hit : State := { pages with dtlb := [pageEntry] }
    start.msrIR = false ∧ start.msrDR = false ∧
    (batHits start.mmu.ibat start.msrPR 0xFFFFFFFC).length ≤ 1 ∧
    (batHits blocks.mmu.dbat blocks.msrPR 0x00201004).length = 1 ∧ start.dabrMatch .load 0xFFFFFFFC = false ∧
    (tlbFind (pages.tlb .load) 0x001234 0x30005678 = none ∧
      pages.pteFor 0x001234 0x30005678 = some 0x00108C40 ∧ pages.pteFor 0x001234 0x30006678 = none) ∧
    (tlbFind (hit.tlb .store) 0x001234 0x30005678 = some pageEntry ∧
      (hit.pageAnswer .store 0x20001234 0x30005678 0x00ABC 2 2).isMapped = true ∧
      hit.pteFor 0x001234 0x30005678 = some 0x00108C40 ∧
      { hit with mem := [] }.pteFor 0x001234 0x30005678 = none) := by
  decide +kernel

/-- The memory system of that state is sound and all RAM. -/
theorem witness_PageTranslation_sound : pages.dataSound ∧ ∀ b, pages.kindOf b = .ram :=
  ⟨⟨by decide +kernel, fun _ => ⟨by unfold State.dcacheDistinct; decide,
    fun l hl _ => absurd (show l ∈ [] from hl) List.not_mem_nil, fun _ _ _ => ram_everywhere rfl _⟩⟩,
    ram_everywhere rfl⟩

/-- A block that matches in supervisor mode. -/
theorem witness_BatMatchAndAddress : (Bat.mk 0x00200007 0x01040012).hits false 0x0023FFFF = true ∧
    (Bat.mk 0x00200007 0x01040012).hits false 0x00240000 = false := by
  decide +kernel

/-- A pending decrementer taken by a step, and one cleared by a hard reset; `mtspr` to DEC raising it; a count of one
from 0. -/
theorem witness_DecrementerConditionLatched :
    afterStep { start with msr := 0x9002, latches := { start.latches with decPending := true } }
      (fun t => !t.latches.decPending && t.pc == 0x900) = true ∧
    afterStep { start with
      latches := { start.latches with decPending := true }
      inputs := [{ Input.quiet start.pins with hreset := true }] }
      (fun t => !t.latches.decPending && t.pc == 0xFFF00100) = true ∧
    (match exec (.mtspr 3 22 false) (start.writeGpr 3 0x80000000) with
      | .next t => t.latches.decPending
      | .fault _ => false
      | .refused _ => false) = true ∧
    start.dec.toNat < 1 := by
  decide +kernel

/-- A counter that counts, one held by PMCTRIGGER, one that is negative and signals, a threshold event, none of it
while halted. -/
theorem witness_PerformanceMonitor :
    let x : Input := { Input.quiet start.pins with inc1 := 1, inc2 := 7 }
    let m (v c : Word) : State := { start with pm := { start.pm with mmcr0 := v, pmc1 := c } }
    ((m 0x00000105 0).pmBoundary x 0).pm.pmc1 = 1 ∧ ((m 0x00000105 0).pmBoundary x 0).pm.pmc2 = 7 ∧
    ((m 0x00002105 0).pmBoundary x 0).pm.pmc2 = 0 ∧ ((m 0x00002105 0x7FFFFFFF).pmBoundary x 0).pm.released = true ∧
    ((m 0x04008105 0x7FFFFFFF).pmBoundary x 0).pm.pending = true ∧
    ((m 0x04008245 0x7FFFFFFF).pmBoundary { x with sampledIa := 0x44 } 0).pm.sia = 0x44 ∧
    ((m 0x04008105 0x7FFFFFFE).pmBoundary { x with inc1 := 0 } 0).pm.pending = false ∧
    ({ m 0x04008105 0x7FFFFFFF with
      latches := { start.latches with halted := true } }.pmBoundary x 0).pm.pmc1 = 0x7FFFFFFF := by
  decide +kernel

/-- Boundaries without a hard reset, outside the checkstop state: CKSTP_IN, a soft reset, MCP with ME = 0 and 1, nothing
with EE = 0 and 1 and with POW, each interrupt alone. -/
theorem witness_InterruptsByPriority :
    let quiet := Input.quiet start.pins
    let on (msr : Word) (x : Input) : State := { start with msr := msr, inputs := [x] }
    let u (s : State) : State := s.takeInput.2.applyInput s.takeInput.1
    let mcp (msr : Word) := u (on msr { quiet with mc := ⟨false, false, true, false, false, false⟩ })
    let none (s : State) : Bool := !s.latches.sreset && s.latches.mc == McCause.none
    let pinned (smi int : Bool) := u (on 0x9002 { quiet with pins := { start.pins with smi := smi, int := int } })
    let dec : State := { on 0x9002 { quiet with ticks := 1 } with dec := 0 }
    let monitor := u { on 0x9002 quiet with pm := { start.pm with pending := true } }
    (∀ x ∈ [quiet, { quiet with ckstp := true }], (on 0x1002 x).takeInput.1.hreset = false ∧
      (on 0x1002 x).latches.checkstop = false ∧ (on 0x1002 x).takeInput.1.ckstp = x.ckstp) ∧
    (u (on 0x1002 { quiet with sreset := true })).latches.sreset = true ∧
    (mcp 0x1002).latches.sreset = false ∧ (u { on 0x1002 quiet with
      latches := { start.latches with mc := ⟨false, false, true, false, false, false⟩ } }).latches.mc ≠ McCause.none ∧
    (mcp 2).msrME = false ∧ (mcp 0x1002).msrME = true ∧
    (none (u (on 0x1002 quiet)) && !(u (on 0x1002 quiet)).msrEE) = true ∧ (u (on 0x00041002 quiet)).msrPOW = true ∧
    (none (u (on 0x9002 quiet)) && (u (on 0x9002 quiet)).msrEE && !(u (on 0x9002 quiet)).latches.decPending) = true ∧
    (none (pinned true false) && (pinned true false).pins.smi) = true ∧
    (none (pinned false true) && !(pinned false true).pins.smi && (pinned false true).pins.int) = true ∧
    (none monitor && !monitor.pins.smi && !monitor.pins.int && monitor.pm.pending) = true ∧
    (none (u dec) && !(u dec).pm.pending && (u dec).latches.decPending) = true := by
  decide +kernel

/-- The invariant holds before a step that answers a next state. -/
theorem witness_StepKeepsInvariant : loaded.Inv ∧ afterStep loaded (fun t => t.readGpr 3 == 0xFFFFFFFF) = true := by
  unfold State.Inv State.reservedZero fpSummarized; decide +kernel

/-- User mode, an instruction that completes and one that takes an exception. -/
theorem witness_UserModeKeepsSupervisorState : user.msrPR = true ∧ user.took = false ∧
    (match exec (.addi 3 0 1) user with
      | .next t => !t.took
      | .fault _ => false
      | .refused _ => false) = true ∧
    (match exec .sc user with
      | .next t => t.took
      | .fault _ => false
      | .refused _ => false) = true := by
  decide +kernel

/-! ### Storage: segments, the fetch, the bus -/

/-- Each word of a multiple goes where its own address leads (42_loadstore.md R550, 21_mmu.md R250, R257): the words of
`stmw r29` from the last two of a direct-store segment into a block that DBAT1 maps; a word that straddles from T = 1
into a page is all the unit's (R155). -/
theorem test_pieces_across_segments :
    let s : State := { image with
      msr := 0x1012
      mmu := { image.mmu with
        sr := image.mmu.sr.set 0 0x80000123 (by decide)
        dbat := image.mmu.dbat.set 1 ⟨0x10000002, 0x0004000A⟩ (by decide) } }
    mergePieces ([⟨0x0FFFFFF8, 4⟩, ⟨0x0FFFFFFC, 4⟩, ⟨0x10000000, 4⟩].flatMap s.pieces) =
      [.direct 0x80000123 [⟨0x0FFFFFF8, 4⟩, ⟨0x0FFFFFFC, 4⟩], .memory [⟨0x10000000, 4⟩]] ∧
    s.pieces ⟨0x0FFFFFFE, 4⟩ = [.direct 0x80000123 [⟨0x0FFFFFFE, 2⟩], .memory [⟨0x10000000, 2⟩]] ∧
    image.pieces ⟨0x0FFFFFFE, 4⟩ = [.memory [⟨0x0FFFFFFE, 2⟩, ⟨0x10000000, 2⟩]] ∧
    { s with mmu := { s.mmu with dbat := image.mmu.dbat } }.pieces ⟨0x0FFFFFFE, 4⟩ =
      [.direct 0x80000123 [⟨0x0FFFFFFE, 4⟩]] := by
  decide +kernel

/-- The instruction breakpoint comes before the read of the instruction cache (20_memory.md R142); a fetch with MSR[IR]
= 0 and HID0[23] = 1 asserts GBL, with HID0[23] = 0 it does not (R191). -/
theorem test_fetch :
    let on : State := { loaded with cfg := { loaded.cfg with hid0 := 0x8000 } }
    afterStep { on with cfg := { on.cfg with iabr := 0x2002 } }
      (fun t => t.pc == 0x1300 && t.icache == [] && t.busLog == []) = true ∧
    afterStep on (fun t => t.icache.length == 1 && t.busLog == [.tenure .read 0x2000 0 false 32]) = true ∧
    afterStep { on with cfg := { on.cfg with hid0 := 0x8100 } }
      (fun t => t.busLog == [.tenure .read 0x2000 0 true 32]) = true := by
  decide +kernel

/-- The bus rows of 20_memory.md R194: a cacheable read by burst, a write back with WIM 100, a write past the disabled
cache. -/
theorem test_bus :
    ({ image with cfg := { image.cfg with hid0 := 0x4000 } }.loadPhys 0b0010 .read [0x1004]).2.busLog =
      [.tenure .read 0x1000 0b001 true 32] ∧
    (cached.storeBlock 0b0010 0x1004).busLog = [.tenure .writeKill 0x1000 0b100 false 32] ∧
    (image.storePhys 0b0011 false [(0x1004, 1)]).busLog = [.tenure .writeFlush 0x1004 0b011 true 1] := by
  decide +kernel

/-- A store split from a DBAT block into T = 1 whose second part matches the data breakpoint: a free bit says whether the
first part is stored (20_memory.md R141, 42_loadstore.md R504). With the breakpoint elsewhere nothing is drawn. -/
theorem test_split_store_partial :
    let s (dabr : Word) : State := { image with
      msr := 0x1012, cfg := { image.cfg with dabr := dabr }
      mmu := { image.mmu with
        sr := image.mmu.sr.set 1 0x80000123 (by decide)
        dbat := image.mmu.dbat.set 1 ⟨0x0FFE0002, 0x0004000A⟩ (by decide) } }
    let first : Piece := .memory [⟨0x0FFFFFFE, 2⟩]
    let second : Piece := .direct 0x80000123 [⟨0x10000000, 2⟩]
    (s 0x10000006).storedPieces .store ⟨0x0FFFFFFE, 4⟩ =
      (if (s 0x10000006).drawBit.1 then [first, second] else [second], (s 0x10000006).drawBit.2) ∧
    (s 0x20000006).storedPieces .store ⟨0x0FFFFFFE, 4⟩ = ([first, second], s 0x20000006) :=
  ⟨rfl, rfl⟩

/-- A touch changes nothing with the data cache locked, also on a hit (44_system.md R681): the order of the blocks, and
that of the TLB. -/
theorem test_touch_locked :
    let line (b : BitVec 27) : DLine := ⟨b, Vector.replicate 32 0, .exclusive⟩
    let s (hid0 : Word) : State := { pages with
      cfg := { pages.cfg with hid0 := hid0 }, dtlb := [⟨5, 1, 0x001234, 0, false, 2, 2⟩, pageEntry]
      dcache := [line 1, line 0x55E01], gpr := start.gpr.set 3 0x30005020 (by decide) }
    (match exec (.dcbt 0 3) (s 0x5000) with
      | .next t => t == { s 0x5000 with pc := 0x2004 }
      | .fault _ => false
      | .refused _ => false) = true ∧
    (match exec (.dcbt 0 3) (s 0x4000) with
      | .next t => t.dcache == [line 0x55E01, line 1] && t.dtlb.head? == some pageEntry
      | .fault _ => false
      | .refused _ => false) = true := by
  decide +kernel

/-- A direct-store error completes the instruction, whose address is kept for SIA (21_mmu.md R256, 61_platform.md R846);
another DSI does not. -/
theorem test_direct_error_completes :
    let ends (r : Acc) : Result := r.finish 0 .noBase 4 (fun _ t => t) fun t => t
    (match ends (.okError [] 0x82000000 4 start) with
      | .next t => t.lastIa == 0x2000 && t.pc == 0x300 && t.exc.dsisr == 0x82000000
      | .fault _ => false
      | .refused _ => false) = true ∧
    (match ends (.dsi [] 0x42000000 4 start) with
      | .next t => t.lastIa == start.lastIa && t.pc == 0x300
      | .fault _ => false
      | .refused _ => false) = true := by
  decide +kernel

/-- Clearing MSR[IR] where the next instruction has no translation is an implicit branch (70_reset_and_hazards.md R917);
where it is mapped to its own address it is none. -/
theorem test_implicit_branch_ir :
    let s (ibat : Bat) : State := { start with
      msr := 0x1022, mmu := { start.mmu with ibat := start.mmu.ibat.set 0 ibat (by decide) } }
    implicitBranch (s ⟨0, 0⟩) { start with msr := 0x1002 } 0x2004 = true ∧
    implicitBranch (s ⟨2, 2⟩) { start with msr := 0x1002 } 0x2004 = false := by
  decide +kernel

/-- A search that loads a full set: which of the two entries leaves is a free bit (92_eei_decisions.md D12); with an
invalid way in the set nothing leaves (21_mmu.md R242). -/
theorem test_tlb_replacement :
    let old (tag : BitVec 10) : TlbEntry := ⟨5, tag, 0x001234, 0, false, 2, 2⟩
    let s (t : List TlbEntry) : State := { start with dtlb := t }
    (s [old 1]).loadTlb .load pageEntry = s [pageEntry, old 1] ∧
    (s [old 1, old 2]).loadTlb .load pageEntry =
      { (s [old 1, old 2]).drawBit.2 with
        dtlb := tlbReplace [old 1, old 2] (if (s [old 1, old 2]).drawBit.1 then some (old 2) else some (old 1))
          pageEntry } ∧
    tlbReplace [old 1, old 2] (some (old 1)) pageEntry = [pageEntry, old 2] :=
  ⟨by decide +kernel, rfl, by decide +kernel⟩

/-- The word `stfiwx` stores after a single-precision load is free (41_float.md R473), after a double-precision one it is
the low word. -/
theorem test_stfiwx_word :
    (start.putFpr true 1 0x3FF0000012345678).integerWord 1 = Config.freeWord 0 ∧
    (start.writeFpr 1 0x3FF0000012345678).integerWord 1 = 0x12345678 :=
  ⟨rfl, by decide +kernel⟩

/-- An instruction that ends in the floating-point enabled exception has completed (41_float.md R429): its address is
kept for SIA (61_platform.md R846). `mtfsb1 27` (ZE) with the zero divide flag set. -/
theorem test_fp_enabled_completes :
    after 0xFF60004C { start with msr := 0x3902, fpscr := 0x04000000 } (fun t =>
      t.lastIa == 0x2000 && t.pc == 0x700 && t.exc.srr0 == 0x2000) = true ∧
    after 0xFF60004C { start with msr := 0x1902, fpscr := 0x04000000 } (fun t =>
      t.lastIa == start.lastIa && t.pc == 0x800) = true := by
  decide +kernel

/-- A change of MSR[LE] is an implicit branch, also where the next instruction cannot be fetched before it
(70_reset_and_hazards.md R917). -/
theorem test_implicit_branch_le :
    let s : State := { start with msr := 0x1022 }
    (s.fetchAddr 0x2004).isNone = true ∧ implicitBranch s { s with msr := 0x1023 } 0x2004 = true ∧
    implicitBranch start { start with msr := 0x1003 } 0x2004 = true ∧
    implicitBranch s { s with msr := 0x5022 } 0x2004 = false := by
  decide +kernel

/-- `mtmsr` of 0x9032 is noted as an implicit branch where the code is not mapped at its own address; `sc` is a real branch
(70_reset_and_hazards.md R917). -/
theorem test_implicit_branch_noted :
    let moved (s : State) (i : Instr) : Option Bool := match s.runInstr i with
      | .next t => some t.moved
      | .fault _ => none
      | .refused _ => none
    moved (start.writeGpr 3 0x9032) (.mtmsr 3) = some true ∧
    moved (mappedCode.writeGpr 3 0x9032) (.mtmsr 3) = some false ∧ moved start .sc = some false := by
  decide +kernel

/-- After an implicit branch the next instruction is not fetched (70_reset_and_hazards.md R917), but an exception of the
boundary is taken: an external interrupt, with SRR0 the address of that instruction. -/
theorem test_after_implicit_branch :
    (match step { start with moved := true } with
      | .next _ => false
      | .fault _ => false
      | .refused r => r == .implicitBranch) = true ∧
    (match step { start with moved := true, msr := 0x9002, pins := { start.pins with int := true } } with
      | .next t => t.pc == 0x500 && t.exc.srr0 == 0x2000 && !t.moved
      | .fault _ => false
      | .refused _ => false) = true := by
  decide +kernel

/-- The announcement of a reservation shows the big-endian address of the word (20_memory.md R136): in little-endian mode
that of the other word of the double word. -/
theorem test_reservation_address :
    let busOps (s : State) : List BusOp := (s.loadReserved 0 0x1008).2.busLog
    busOps cached = [.tenure .lwarxSet 0x1008 0 false 0] ∧
    busOps { cached with msr := cached.msr ||| 1 } = [.tenure .lwarxSet 0x100C 0 false 0] := by
  decide +kernel

end Sys2Proof.Tests
end

section
/-! SUPPORT. Proofs/Invariant.lean: what every step keeps (`State.Inv`), operation by operation. -/

namespace Sys2Proof.Machine

/-! ### Masks -/

theorem and_and_eq_zero {v m k : Word} (h : m &&& k = 0) : (v &&& m) &&& k = 0 := by
  rw [BitVec.and_assoc, h]
  exact BitVec.and_zero

theorem and_and_eq_zero_of_left {v m k : Word} (h : v &&& k = 0) : (v &&& m) &&& k = 0 := by
  rw [BitVec.and_comm v m]
  exact and_and_eq_zero h

theorem or_and_eq_zero {a b k : Word} (ha : a &&& k = 0) (hb : b &&& k = 0) : (a ||| b) &&& k = 0 := by
  rw [BitVec.and_or_distrib_right, ha, hb]
  exact BitVec.or_zero

theorem ite_and_eq_zero {c : Prop} [Decidable c] {a b k : Word} (ha : a &&& k = 0) (hb : b &&& k = 0) :
    (if c then a else b) &&& k = 0 := by
  split <;> assumption

theorem setBeBit_and_eq_zero {w k : Word} {i : Nat} (h : w &&& k = 0) (hi : beMask i &&& k = 0) (b : Bool) :
    setBeBit w i b &&& k = 0 := by
  rw [setBeBit_and w k i b hi, h]

theorem shiftLeft_and_eq_zero (x k : Word) {n : Nat} (hk : k.toNat < 2 ^ n) : (x <<< n) &&& k = 0 := by
  apply BitVec.eq_of_getLsbD_eq
  intro i _
  by_cases hi : i < n
  · simp [hi]
  · have : k.getLsbD i = false :=
      Nat.testBit_lt_two_pow (Nat.lt_of_lt_of_le hk (Nat.pow_le_pow_right (by decide) (by omega)))
    simp [this]

/-! ### Word-aligned addresses (R132) -/

theorem and_three_eq_zero_iff (a : Word) : a &&& 3 = 0 ↔ a.toNat % 4 = 0 := by
  rw [← BitVec.toNat_inj, BitVec.toNat_and]
  exact iff_of_eq (congrArg (· = 0) (Nat.and_two_pow_sub_one_eq_mod a.toNat 2))

theorem aligned_add {a b : Word} (ha : a &&& 3 = 0) (hb : b &&& 3 = 0) : (a + b) &&& 3 = 0 := by
  rw [and_three_eq_zero_iff] at *
  rw [BitVec.toNat_add]
  omega

theorem aligned_alignWord (a : Word) : alignWord a &&& 3 = 0 := and_and_eq_zero (by decide)

theorem aligned_signExtend {n : Nat} (x : BitVec n) : (x ++ 0#2).signExtend 32 &&& (3 : Word) = 0 := by
  apply BitVec.eq_of_getLsbD_eq
  intro i hi
  by_cases h : i < 2
  · simp [BitVec.getLsbD_signExtend, BitVec.getElem_append, h, show i < n + 2 by omega]
  · have : (3#32).getLsbD i = false :=
      Nat.testBit_lt_two_pow (Nat.lt_of_lt_of_le (by decide : 3 < 2 ^ 2) (Nat.pow_le_pow_right (by decide) (by omega)))
    simp [this]

theorem aligned_vector (s : State) {off : Word} (h : off &&& 3 = 0) : s.vector off &&& 3 = 0 :=
  aligned_add (ite_and_eq_zero (by decide) (by decide)) h

section
variable {s t : State}

/-! ### The invariant and the fields it speaks of -/

/-- The invariant speaks of these fields only. -/
theorem State.Inv.congr (h : s.Inv) (mem : Memory.wf t.mem = true) (pc : t.pc = s.pc) (msr : t.msr = s.msr)
    (xer : t.xer = s.xer) (fpscr : t.fpscr = s.fpscr) (cfg : t.cfg = s.cfg) (mmu : t.mmu = s.mmu)
    (mmcr1 : t.pm.mmcr1 = s.pm.mmcr1) : t.Inv := by
  obtain ⟨-, hpc, hres, hfp⟩ := h
  unfold State.Inv State.reservedZero
  rw [pc, msr, xer, fpscr, cfg, mmu, mmcr1]
  exact ⟨mem, hpc, hres, hfp⟩

theorem State.Inv.withPc (h : s.Inv) {a : Word} (ha : a &&& 3 = 0) : State.Inv { s with pc := a } :=
  ⟨h.1, ha, h.2.2⟩

theorem State.Inv.withMem (h : s.Inv) {m : List Host.Cell} (hm : Memory.wf m = true) : State.Inv { s with mem := m } :=
  ⟨hm, h.2⟩

theorem State.Inv.withMsr (h : s.Inv) {w : Word} (hw : w &&& 0xFFFA0088 = 0) : State.Inv { s with msr := w } := by
  obtain ⟨hmem, hpc, ⟨-, hres⟩, hfp⟩ := h
  exact ⟨hmem, hpc, ⟨hw, hres⟩, hfp⟩

theorem State.Inv.withXer (h : s.Inv) {w : Word} (hw : w &&& 0x1FFFFF80 = 0) : State.Inv { s with xer := w } := by
  obtain ⟨hmem, hpc, ⟨hmsr, -, hres⟩, hfp⟩ := h
  exact ⟨hmem, hpc, ⟨hmsr, hw, hres⟩, hfp⟩

theorem State.Inv.withFpscr (h : s.Inv) {w : Word} (hw : w &&& 0x00000800 = 0) (hs : fpSummarized w) :
    State.Inv { s with fpscr := w } := by
  obtain ⟨hmem, hpc, ⟨hmsr, hxer, -, hres⟩, -⟩ := h
  exact ⟨hmem, hpc, ⟨hmsr, hxer, hw, hres⟩, hs⟩

theorem State.Inv.withHid0 (h : s.Inv) {w : Word} (hw : w &&& 0x0EFE0E79 = 0) :
    State.Inv { s with cfg := { s.cfg with hid0 := w } } := by
  obtain ⟨hmem, hpc, ⟨hmsr, hxer, hfpscr, -, hres⟩, hfp⟩ := h
  exact ⟨hmem, hpc, ⟨hmsr, hxer, hfpscr, hw, hres⟩, hfp⟩

theorem State.Inv.withEar (h : s.Inv) {w : Word} (hw : w &&& 0x7FFFFFC0 = 0) :
    State.Inv { s with cfg := { s.cfg with ear := w } } := by
  obtain ⟨hmem, hpc, ⟨hmsr, hxer, hfpscr, hhid0, -, hres⟩, hfp⟩ := h
  exact ⟨hmem, hpc, ⟨hmsr, hxer, hfpscr, hhid0, hw, hres⟩, hfp⟩

theorem State.Inv.withSdr1 (h : s.Inv) {w : Word} (hw : w &&& 0x0000FE00 = 0) :
    State.Inv { s with mmu := { s.mmu with sdr1 := w } } := by
  obtain ⟨hmem, hpc, ⟨hmsr, hxer, hfpscr, hhid0, hear, -, hres⟩, hfp⟩ := h
  exact ⟨hmem, hpc, ⟨hmsr, hxer, hfpscr, hhid0, hear, hw, hres⟩, hfp⟩

theorem State.Inv.withMmcr1 (h : s.Inv) {w : Word} (hw : w &&& 0x003FFFFF = 0) :
    State.Inv { s with pm := { s.pm with mmcr1 := w } } := by
  obtain ⟨hmem, hpc, ⟨hmsr, hxer, hfpscr, hhid0, hear, hsdr1, -⟩, hfp⟩ := h
  exact ⟨hmem, hpc, ⟨hmsr, hxer, hfpscr, hhid0, hear, hsdr1, hw⟩, hfp⟩

theorem State.Inv.xer_reserved (h : s.Inv) : s.xer &&& 0x1FFFFF80 = 0 := by
  obtain ⟨-, -, ⟨-, hxer, -⟩, -⟩ := h
  exact hxer

theorem State.Inv.fpscr_reserved (h : s.Inv) : s.fpscr &&& 0x00000800 = 0 := by
  obtain ⟨-, -, ⟨-, -, hfpscr, -⟩, -⟩ := h
  exact hfpscr

theorem State.Inv.msr_reserved (h : s.Inv) : s.msr &&& 0xFFFA0088 = 0 := by
  obtain ⟨-, -, ⟨hmsr, -⟩, -⟩ := h
  exact hmsr

theorem State.Inv.next_aligned (h : s.Inv) : (s.pc + 4) &&& 3 = 0 := aligned_add h.2.1 (by decide)

theorem State.Inv.advance (h : s.Inv) : s.advance.Inv := h.withPc h.next_aligned

/-- Translating and accessing operands keeps the invariant. -/
theorem State.Inv.storage (h : s.Inv) (hs : s.storageStep t) : t.Inv := by
  obtain ⟨only, wf⟩ := hs
  unfold State.onlyStorage at only
  exact h.congr (wf h.1) (by rw [only]) (by rw [only]) (by rw [only]) (by rw [only]) (by rw [only]) (by rw [only])
    (by rw [only])

/-! ### Exceptions -/

/-- The entry sequence keeps the invariant if the vector is aligned and no reserved MSR bit is kept. -/
theorem State.Inv.enter (h : s.Inv) {off keep : Word} (ho : off &&& 3 = 0) (hk : keep &&& 0xFFFA0088 = 0)
    (srr0 info copied : Word) : (s.enter off srr0 info keep copied).Inv :=
  (h.withMsr (or_and_eq_zero (and_and_eq_zero hk) (ite_and_eq_zero (by decide) (by decide)))).withPc
    (aligned_vector s ho)

theorem State.Inv.takeException (h : s.Inv) {off : Word} (ho : off &&& 3 = 0) (srr0 info : Word) :
    (s.takeException off srr0 info).Inv := h.enter ho (by decide) _ _ _

theorem State.Inv.takeMachineCheck (h : s.Inv) (c : McCause) : (s.takeMachineCheck c).Inv :=
  State.Inv.enter (s := s.drawWord.2) h (by decide) (by decide) _ _ _

theorem State.Inv.takeDsi (h : s.Inv) (dsisr dar : Word) : (s.takeDsi dsisr dar).Inv :=
  State.Inv.takeException (s := { s with exc := { s.exc with dsisr := dsisr, dar := dar } }) h (by decide) _ _

theorem State.Inv.takeDirectError (h : s.Inv) (dsisr dar : Word) : (s.takeDirectError dsisr dar).Inv :=
  State.Inv.takeDsi (s := { s with lastIa := s.pc }) h _ _

theorem State.Inv.takeAlignment (h : s.Inv) (w : Word) (f : AlignForm) (ea : Word) : (s.takeAlignment w f ea).Inv :=
  State.Inv.takeException (s := { s.drawWord.2 with
    exc := { s.exc with dsisr := alignDsisr w f s.drawWord.1, dar := ea } }) h (by decide) _ _

theorem State.Inv.takeProgram (h : s.Inv) (info : Word) : (s.takeProgram info).Inv := h.takeException (by decide) _ _

theorem State.Inv.recheckFp (h : s.Inv) : s.recheckFp.Inv := by
  unfold State.recheckFp
  split
  · exact h.takeException (by decide) _ _
  · exact h

theorem State.Inv.returnFromException (h : s.Inv) : s.returnFromException.Inv :=
  (h.withMsr (or_and_eq_zero (and_and_eq_zero_of_left h.msr_reserved) (and_and_eq_zero (by decide)))).withPc
    (aligned_alignWord _)

/-! ### Outcomes -/

/-- If the outcome is a next state, the invariant holds there. -/
structure LeadsToInv (r : Result) : Prop where
  inv : ∀ t, r = .next t → t.Inv

theorem State.Inv.leads (h : s.Inv) : LeadsToInv (.next s) := ⟨fun _ e => by cases e; exact h⟩

theorem leadsToInv_refused (x : Refusal) : LeadsToInv (.refused x) := ⟨fun _ e => by cases e⟩

theorem State.Inv.supervisorOnly (h : s.Inv) {k : Result} (hk : LeadsToInv k) : LeadsToInv (s.supervisorOnly k) := by
  unfold State.supervisorOnly
  split
  · exact (h.takeProgram _).leads
  · exact hk

theorem State.Inv.needFp (h : s.Inv) {k : Result} (hk : LeadsToInv k) : LeadsToInv (s.needFp k) := by
  unfold State.needFp
  split
  · exact hk
  · exact (h.takeException (by decide) _ _).leads

/-- An access keeps the invariant if what it writes to registers does. -/
theorem State.Inv.finishWith (h : s.Inv) {r : Acc} (hr : r.within s) (w : Word) (f : AlignForm) (ea : Word)
    {target : List Byte → State → State} {rest : State → State} {part : List Byte → State → State}
    (htarget : ∀ b u, u.Inv → (target b u).Inv) (hrest : ∀ u, u.Inv → (rest u).Inv)
    (hpart : ∀ b u, u.Inv → (part b u).Inv) : LeadsToInv (r.finishWith w f ea target rest part) := by
  cases r with
  | ok b u => exact (hrest _ (htarget b u (h.storage hr))).advance.leads
  | okError b c d u => exact ((htarget b u (h.storage hr)).takeDirectError c d).leads
  | dsi b c d u => exact ((hpart b u (h.storage hr)).takeDsi c d).leads
  | align u => exact ((h.storage hr).takeAlignment w f ea).leads
  | refuse x => exact leadsToInv_refused x

theorem State.Inv.finish (h : s.Inv) {r : Acc} (hr : r.within s) (w : Word) (f : AlignForm) (ea : Word)
    {target : List Byte → State → State} {rest : State → State} (htarget : ∀ b u, u.Inv → (target b u).Inv)
    (hrest : ∀ u, u.Inv → (rest u).Inv) : LeadsToInv (r.finish w f ea target rest) :=
  h.finishWith hr w f ea htarget hrest fun _ _ hu => hu

end
end Sys2Proof.Machine
end

section
/-! SUPPORT. Proofs/InvariantBoundary.lean: the boundary between two instructions keeps the invariant (O58). -/

namespace Sys2Proof.Machine

section
variable {s t : State}

/-! ### The boundary -/

/-- What the performance monitor can change at a boundary: itself but for MMCR1, and the count of free values. -/
def State.pmStep (s t : State) : Prop := t = { s with pm := t.pm, fresh := t.fresh } ∧ t.pm.mmcr1 = s.pm.mmcr1

theorem State.pmStep_trans {u : State} (h : s.pmStep t) (h' : t.pmStep u) : s.pmStep u := by
  obtain ⟨ht, hm⟩ := h
  obtain ⟨hu, hm'⟩ := h'
  exact ⟨by rw [hu, ht], hm'.trans hm⟩

theorem State.pmStep_pmCount (s : State) (x : Input) (n : Nat) : s.pmStep (s.pmCount x n) := by
  unfold State.pmCount
  dsimp only
  split
  · split <;> exact ⟨rfl, rfl⟩
  · exact ⟨rfl, rfl⟩

theorem State.pmStep_pmBoundary (s : State) (x : Input) (n : Nat) : s.pmStep (s.pmBoundary x n) := by
  have release (u : State) : u.pmStep u.pmRelease := ⟨rfl, rfl⟩
  have signal (u : State) : u.pmStep (u.pmSignal x) := ⟨rfl, rfl⟩
  have counted := State.pmStep_trans (State.pmStep_trans (release s) (State.pmStep_pmCount _ x n)) (release _)
  unfold State.pmBoundary
  dsimp only
  split
  · exact State.pmStep_trans counted (signal _)
  · exact counted

theorem State.Inv.pmStep (h : s.Inv) (hp : s.pmStep t) : t.Inv := by
  obtain ⟨only, mmcr1⟩ := hp
  refine h.congr ?_ ?_ ?_ ?_ ?_ ?_ ?_ mmcr1 <;> rw [only]
  exact h.1

theorem State.Inv.snoopPushes (h : s.Inv) (k : BusKind) : (s.snoopPushes k).2.Inv := by
  unfold State.snoopPushes
  split <;> exact h

theorem State.Inv.snoopData (h : s.Inv) (k : BusKind) (b : BitVec 27) : (s.snoopData k b).Inv := by
  unfold State.snoopData
  split
  · exact h
  · rename_i l _
    have pushed : State.Inv (if l.mesi = .modified then
        (if (s.snoopPushes k).1 then (s.snoopPushes k).2.writeBack l else (s.snoopPushes k).2) else s) := by
      split
      · split
        · exact (h.snoopPushes k).storage (State.storageStep_writeBack _ l)
        · exact h.snoopPushes k
      · exact h
    dsimp only
    split <;> exact pushed

theorem State.Inv.invalidateI (h : s.Inv) (b : BitVec 27) : (s.invalidateI b).Inv := by
  unfold State.invalidateI
  split <;> exact h

theorem State.Inv.ite {c : Prop} [Decidable c] (hs : s.Inv) (ht : t.Inv) : State.Inv (if c then s else t) := by
  split <;> assumption

theorem State.Inv.snoopOne (h : s.Inv) (x : Snoop) : (s.snoopOne x).Inv := by
  unfold State.snoopOne
  dsimp only
  have released : State.Inv
      (if x.gbl && x.kind.releases && s.resvAddr == blockOf x.addr then { s with resv := false } else s) :=
    State.Inv.ite h h
  have answered := State.Inv.ite (c := x.gbl = true) (released.snoopData x.kind (blockOf x.addr)) released
  have filled := fun c [Decidable c] => State.Inv.ite (c := c) (answered.invalidateI (blockOf x.addr)) answered
  exact State.Inv.ite (filled _) (filled _)

theorem State.Inv.masterWrite (h : s.Inv) (x : Snoop) : (s.masterWrite x).Inv :=
  State.Inv.ite (h.withMem (Memory.wf_writeBytes _ _ _ h.1)) h

theorem State.Inv.otherMaster (h : s.Inv) (x : Snoop) : (s.otherMaster x).Inv :=
  (State.Inv.ite h (h.snoopOne x)).masterWrite x

theorem State.Inv.otherMasters (h : s.Inv) (l : List Snoop) : (l.foldl State.otherMaster s).Inv :=
  List.foldlRecOn l _ h fun _ hu x _ => hu.otherMaster x

theorem State.Inv.masterWrites (h : s.Inv) (l : List Snoop) : (l.foldl State.masterWrite s).Inv :=
  List.foldlRecOn l _ h fun _ hu x _ => hu.masterWrite x

/-- The invariant does not speak of the latches and the note of a TEA. -/
theorem State.Inv.withLatches (h : s.Inv) (b : Bool) (l : Latches) : State.Inv { s with tea := b, latches := l } := h

theorem State.Inv.tick (h : s.Inv) (k : Nat) : (s.tick k).Inv := h

theorem State.Inv.applyInput (h : s.Inv) (x : Input) : (s.applyInput x).Inv := by
  have snooped := State.Inv.otherMasters (s := { s with pins := x.pins }) h x.snoops
  have counted := fun n => (snooped.tick x.ticks).pmStep (State.pmStep_pmBoundary _ x n)
  exact (counted _).withLatches _ _

theorem State.Inv.asynchronous (h : s.Inv) (ha : s.asynchronous = some t) : t.Inv := by
  have latched (l : Latches) : State.Inv { s with latches := l } := h
  have served : State.Inv { s with pm := { s.pm with pending := false } } := h
  obtain ⟨-, rfl⟩ | ⟨-, -, rfl⟩ | ⟨-, -, rfl⟩ | ⟨-, -, rfl⟩ | ⟨-, -, rfl⟩ | ⟨-, -, rfl⟩ | ⟨-, -, rfl⟩ :=
    State.asynchronous_cases ha
  · exact (latched _).takeException (by decide) _ _
  · exact (latched _).takeMachineCheck _
  · exact h
  · exact h.takeException (by decide) _ _
  · exact h.takeException (by decide) _ _
  · exact served.takeException (by decide) _ _
  · exact (latched _).takeException (by decide) _ _

theorem State.Inv.takeInput (h : s.Inv) : s.takeInput.2.Inv := by
  unfold State.takeInput
  split <;> exact h

theorem fpSummarized_zero : fpSummarized 0 := ⟨by decide, by decide⟩

theorem State.reset_inv : State.reset.Inv := ⟨State.reset_mem_wf, by decide, ⟨by decide, by decide, by decide, by decide,
  by decide, by decide, by decide⟩, fpSummarized_zero⟩

/-- A hard reset gives every register its reset value and leaves memory. -/
theorem State.Inv.hardReset (h : s.Inv) : s.hardReset.Inv := State.reset_inv.withMem h.1

theorem State.Inv.boundary (h : s.Inv) : s.boundary.1.Inv := by
  have hi := h.takeInput
  have applied := hi.applyInput s.takeInput.1
  unfold State.boundary
  dsimp only
  split
  · exact (State.Inv.masterWrites (s := { s.takeInput.2 with pins := s.takeInput.1.pins }) hi _).hardReset
  split
  · exact State.Inv.otherMasters (s := { s.takeInput.2 with pins := s.takeInput.1.pins }) hi _
  split
  · exact applied
  split
  · exact applied.asynchronous ‹_›
  split <;> exact applied

end
end Sys2Proof.Machine
end

section
/-! SUPPORT. Proofs/InvariantRegisters.lean: the integer, branch and floating-point operations keep the invariant (O58). -/

namespace Sys2Proof.Machine

section
variable {s t : State}

/-! ### Free values, registers and flags -/

theorem State.Inv.writeGpr (h : s.Inv) (r : Reg) (v : Word) : (s.writeGpr r v).Inv := h

theorem State.Inv.putFpr (h : s.Inv) (single : Bool) (r : Reg) (v : Dword) : (s.putFpr single r v).Inv := h

theorem State.Inv.setCrField (h : s.Inv) (n : Nat) (v : BitVec 4) : (s.setCrField n v).Inv := h

theorem State.Inv.undefineCrField (h : s.Inv) (n : Nat) : (s.undefineCrField n).Inv := h

theorem State.Inv.undefineGpr (h : s.Inv) (r : Reg) : (s.undefineGpr r).Inv := h

theorem State.Inv.badRecordBit (h : s.Inv) (bad : Bool) : (s.badRecordBit bad).Inv := State.Inv.ite (h.undefineCrField 0) h

theorem State.Inv.recordIf (h : s.Inv) (rc : Bool) (v : Word) : (s.recordIf rc v).Inv :=
  State.Inv.ite (h.setCrField 0 _) h

theorem State.Inv.setCa (h : s.Inv) (b : Bool) : (s.setCa b).Inv :=
  h.withXer (setBeBit_and_eq_zero h.xer_reserved (by decide) b)

theorem State.Inv.overflowIf (h : s.Inv) (oe ov : Bool) : (s.overflowIf oe ov).Inv :=
  State.Inv.ite
    (h.withXer (setBeBit_and_eq_zero (setBeBit_and_eq_zero h.xer_reserved (by decide) _) (by decide) _)) h

/-! ### Integer results (R320, R321) -/

theorem State.Inv.putResult (h : s.Inv) (r : Reg) (v : Word) (rc : Bool) : LeadsToInv (s.putResult r v rc) :=
  ((h.writeGpr r v).recordIf rc v).advance.leads

theorem State.Inv.putSum (h : s.Inv) (r : Reg) (a b : Word) (c carries oe rc : Bool) :
    LeadsToInv (s.putSum r a b c carries oe rc) :=
  ((State.Inv.ite (h.setCa _) h).overflowIf oe _).putResult r _ rc

theorem State.Inv.putUndefinedQuotient (h : s.Inv) (r : Reg) (q : Word) (c : BitVec 3) (oe rc : Bool) :
    LeadsToInv (s.putUndefinedQuotient r q c oe rc) := by
  have written := (h.overflowIf oe true).writeGpr r q
  exact (State.Inv.ite (written.setCrField 0 _) written).advance.leads

theorem State.Inv.putQuotient (h : s.Inv) (r : Reg) (q : Word) (oe rc : Bool) : LeadsToInv (s.putQuotient r q oe rc) :=
  (h.overflowIf oe false).putResult r q rc

theorem State.Inv.putCompare (h : s.Inv) (n : BitVec 3) (c : BitVec 4) : LeadsToInv (s.putCompare n c) :=
  (h.setCrField n.toNat c).advance.leads

theorem State.Inv.putAlgebraic (h : s.Inv) (r : Reg) (v : Word × Bool) (rc : Bool) :
    LeadsToInv (s.putAlgebraic r v rc) := (h.setCa _).putResult r _ rc

theorem State.Inv.execDivw (h : s.Inv) (rD rA rB : Reg) (oe rc : Bool) : LeadsToInv (execDivw rD rA rB oe rc s) := by
  unfold Machine.execDivw
  dsimp only
  split
  · exact h.putUndefinedQuotient _ _ _ _ _
  · exact h.putQuotient _ _ _ _

theorem State.Inv.execDivwu (h : s.Inv) (rD rA rB : Reg) (oe rc : Bool) : LeadsToInv (execDivwu rD rA rB oe rc s) := by
  unfold Machine.execDivwu
  dsimp only
  split
  · exact h.putUndefinedQuotient _ _ _ _ _
  · exact h.putQuotient _ _ _ _

/-! ### Branches, condition register, traps -/

theorem State.Inv.branchTo (h : s.Inv) (bo bi : BitVec 5) (lk : Bool) {target : Word} (ht : target &&& 3 = 0) :
    LeadsToInv (s.branchTo bo bi lk target) :=
  (State.Inv.withPc (s := { s with ctr := s.branchCtr bo, lr := if lk then s.nextAddr else s.lr }) h
    (ite_and_eq_zero ht h.next_aligned)).leads

theorem State.Inv.execB (h : s.Inv) (li : BitVec 24) (aa lk : Bool) : LeadsToInv (execB li aa lk s) :=
  (State.Inv.withPc (s := { s with lr := if lk then s.nextAddr else s.lr }) h
    (ite_and_eq_zero (aligned_signExtend li) (aligned_add h.2.1 (aligned_signExtend li)))).leads

theorem State.Inv.execBc (h : s.Inv) (bo bi : BitVec 5) (bd : BitVec 14) (aa lk : Bool) :
    LeadsToInv (execBc bo bi bd aa lk s) :=
  h.branchTo bo bi lk (ite_and_eq_zero (aligned_signExtend bd) (aligned_add h.2.1 (aligned_signExtend bd)))

theorem State.Inv.execBcctr (h : s.Inv) (bo bi : BitVec 5) (lk : Bool) : LeadsToInv (execBcctr bo bi lk s) := by
  unfold Machine.execBcctr
  split
  · exact h.branchTo bo bi lk (aligned_alignWord _)
  · exact State.Inv.branchTo (s := s.drawWord.2) h bo bi lk (aligned_alignWord _)

theorem State.Inv.putCrBit (h : s.Inv) (d : BitVec 5) (v : Bool) : LeadsToInv (s.putCrBit d v) :=
  State.Inv.leads (State.Inv.advance (s := { s with cr := setBeBit s.cr d.toNat v }) h)

theorem State.Inv.trapIf (h : s.Inv) (met : Bool) : LeadsToInv (s.trapIf met) :=
  (State.Inv.ite (h.takeProgram _) h.advance).leads

/-! ### Floating point -/

/-- The end of a floating-point instruction keeps the invariant. -/
theorem State.Inv.fpDone (h : s.Inv) (rc : Bool) : LeadsToInv (s.fpDone rc) := by
  have recorded : (s.recordFpIf rc).Inv := State.Inv.ite (h.setCrField 1 _) h
  have noted (a : Word) : State.Inv { s.recordFpIf rc with lastIa := a } := recorded
  unfold State.fpDone
  dsimp only
  split
  · exact ((noted _).takeException (by decide) _ _).leads
  · exact recorded.advance.leads

theorem fpSummary_reserved {w : Word} (h : w &&& 0x00000800 = 0) : fpSummary w &&& 0x00000800 = 0 :=
  setBeBit_and_eq_zero (setBeBit_and_eq_zero h (by decide) _) (by decide) _

theorem fpSettle_reserved (old : Word) {w : Word} (h : w &&& 0x00000800 = 0) : fpSettle old w &&& 0x00000800 = 0 :=
  fpSummary_reserved (ite_and_eq_zero (setBeBit_and_eq_zero h (by decide) _) h)

theorem State.Inv.withSettled (h : s.Inv) {w : Word} (hw : w &&& 0x00000800 = 0) :
    State.Inv { s with fpscr := fpSettle s.fpscr w } :=
  h.withFpscr (fpSettle_reserved _ hw) (fpSummarized_fpSettle _ _)

theorem State.Inv.withSummary (h : s.Inv) {w : Word} (hw : w &&& 0x00000800 = 0) :
    State.Inv { s with fpscr := fpSummary w } :=
  h.withFpscr (fpSummary_reserved hw) (fpSummarized_fpSummary _)

theorem fpscrStatus_reserved {w : Word} (h : w &&& 0x00000800 = 0) (c : Option (BitVec 5)) (fr fi : Bool) :
    fpscrStatus w c fr fi &&& 0x00000800 = 0 := by
  refine setBeBit_and_eq_zero (setBeBit_and_eq_zero ?_ (by decide) _) (by decide) _
  cases c with
  | none => exact h
  | some c => exact or_and_eq_zero (and_and_eq_zero_of_left h) (shiftLeft_and_eq_zero _ _ (by decide))

/-- No operation raises the reserved bit 20 of FPSCR. -/
def FpOut.sparesReserved (r : FpOut) : Prop := r.exc &&& 0x00000800 = 0

theorem FpOut.sparesReserved_mk {exc : Word} (h : exc &&& 0x00000800 = 0) (write : Option (Dword × BitVec 5))
    (fr fi : Option Bool) : FpOut.sparesReserved ⟨exc, write, fr, fi⟩ := h

theorem roundTo_sparesReserved (fmt : FpFormat) (w : Word) (flip : Bool) (v : FpVal) :
    (roundTo fmt w flip v).sparesReserved := by
  have inexact (b : Bool) : (if b then fpXX else 0) &&& (0x00000800 : Word) = 0 := ite_and_eq_zero (by decide) (by decide)
  have underflow (b : Bool) : (if b then fpUX ||| fpXX else 0) &&& (0x00000800 : Word) = 0 :=
    ite_and_eq_zero (by decide) (by decide)
  have overflow : (fpOX ||| fpXX) &&& (0x00000800 : Word) = 0 := by decide
  cases v with
  | nan => exact FpOut.sparesReserved_mk (by decide) _ _ _
  | inf n => exact FpOut.sparesReserved_mk (by decide) _ _ _
  | zero n => exact FpOut.sparesReserved_mk (by decide) _ _ _
  | num n m e =>
    unfold roundTo
    dsimp only
    split
    · split
      · exact or_and_eq_zero (by decide) (inexact _)
      · split <;> exact overflow
    split
    · split
      · exact or_and_eq_zero (by decide) (inexact _)
      split
      · exact underflow _
      split
      · split
        · exact underflow true
        · exact underflow _
      · exact underflow _
    · exact inexact _

theorem fpSelect_sparesReserved (fmt : FpFormat) (w : Word) (ops : List Dword) {vx : Word} {r : FpOut}
    (hv : vx &&& 0x00000800 = 0) (hr : r.sparesReserved) : (fpSelect fmt w ops vx r).sparesReserved := by
  have raised : (vx ||| (if ops.any isSnan then fpVXSNAN else 0)) &&& 0x00000800 = 0 :=
    or_and_eq_zero hv (ite_and_eq_zero (by decide) (by decide))
  unfold fpSelect
  generalize (vx ||| (if ops.any isSnan then fpVXSNAN else 0)) = v at raised
  dsimp only
  split
  · split
    · exact FpOut.sparesReserved_mk (by decide) _ _ _
    · exact hr
  split
  · exact raised
  split <;> exact raised

theorem zeroDivide_sparesReserved (w : Word) (neg : Bool) : (zeroDivide w neg).sparesReserved := by
  unfold zeroDivide
  split <;> exact FpOut.sparesReserved_mk (by decide) _ _ _

theorem fpAdd_sparesReserved (fmt : FpFormat) (w : Word) (minus : Bool) (a b : Dword) :
    (fpAdd fmt w minus a b).sparesReserved :=
  fpSelect_sparesReserved _ _ _ (ite_and_eq_zero (by decide) (by decide)) (roundTo_sparesReserved _ _ _ _)

theorem fpMul_sparesReserved (fmt : FpFormat) (w : Word) (a c : Dword) : (fpMul fmt w a c).sparesReserved :=
  fpSelect_sparesReserved _ _ _ (ite_and_eq_zero (by decide) (by decide)) (roundTo_sparesReserved _ _ _ _)

theorem fpDiv_sparesReserved (fmt : FpFormat) (w : Word) (a b : Dword) : (fpDiv fmt w a b).sparesReserved := by
  refine fpSelect_sparesReserved _ _ _ (ite_and_eq_zero (by decide) (ite_and_eq_zero (by decide) (by decide))) ?_
  split
  · exact zeroDivide_sparesReserved _ _
  · exact roundTo_sparesReserved _ _ _ _

theorem fpMulAdd_sparesReserved (fmt : FpFormat) (w : Word) (minus flip : Bool) (a c b : Dword) :
    (fpMulAdd fmt w minus flip a c b).sparesReserved :=
  fpSelect_sparesReserved _ _ _ (or_and_eq_zero (ite_and_eq_zero (by decide) (by decide))
    (ite_and_eq_zero (by decide) (by decide))) (roundTo_sparesReserved _ _ _ _)

theorem fpRoundSingle_sparesReserved (w : Word) (b : Dword) : (fpRoundSingle w b).sparesReserved :=
  fpSelect_sparesReserved _ _ _ (by decide) (roundTo_sparesReserved _ _ _ _)

/-- An estimate raises no bit outside its mask. -/
theorem estimateOut_sparesReserved {keep : Word} (h : keep &&& 0x00000800 = 0) (r : FpOut) :
    (estimateOut keep r).sparesReserved := and_and_eq_zero h

theorem invalidInt_reserved (w : Word) {exc : Word} (h : exc &&& 0x00000800 = 0) (v : Word) :
    (invalidInt w exc v).exc &&& 0x00000800 = 0 := h

theorem fpToInt_reserved (w : Word) (rn : Rounding) (b : Dword) : (fpToInt w rn b).exc &&& 0x00000800 = 0 := by
  unfold fpToInt
  dsimp only
  split
  · exact invalidInt_reserved _ (or_and_eq_zero (by decide) (ite_and_eq_zero (by decide) (by decide))) _
  · exact invalidInt_reserved _ (by decide) _
  · decide
  · split
    · exact invalidInt_reserved _ (by decide) _
    split
    · exact invalidInt_reserved _ (by decide) _
    · exact ite_and_eq_zero (by decide) (by decide)

/-- A delivered result keeps the invariant. -/
theorem State.Inv.putFloat (h : s.Inv) (single : Bool) (frD : Reg) {r : FpOut} (hr : r.sparesReserved) (rc : Bool) :
    LeadsToInv (s.putFloat single frD r rc) := by
  have drawn (u : State) (hu : u.Inv) (b : Option Bool) : (u.bitOrFree b).2.Inv := by
    cases b <;> exact hu
  have settled := fun fr fi => State.Inv.withFpscr (drawn _ (drawn s h r.fr) r.fi)
    (fpSettle_reserved s.fpscr (fpscrStatus_reserved (or_and_eq_zero h.fpscr_reserved hr) (r.write.map Prod.snd) fr fi))
    (fpSummarized_fpSettle _ _)
  unfold State.putFloat
  dsimp only
  split
  · exact ((settled _ _).putFpr _ _ _).fpDone rc
  · exact (settled _ _).fpDone rc

theorem State.Inv.putSingle (h : s.Inv) (frD : Reg) (ops : List Dword) {could : Word} (hc : could &&& 0x00000800 = 0)
    {r : FpOut} (hr : r.sparesReserved) (rc : Bool) : LeadsToInv (s.putSingle frD ops could r rc) := by
  have mask : (could ||| 0x0007F000) &&& 0x00000800 = 0 := or_and_eq_zero hc (by decide)
  unfold State.putSingle
  dsimp only
  split
  · exact ((State.Inv.withSettled (s := s.drawDword.2.drawWord.2) h (or_and_eq_zero
      (and_and_eq_zero_of_left h.fpscr_reserved) (and_and_eq_zero mask))).putFpr _ _ _).fpDone rc
  · exact h.putFloat true frD hr rc

theorem State.Inv.putInt (h : s.Inv) (frD : Reg) {r : IntOut} (hr : r.exc &&& 0x00000800 = 0) (rc : Bool) :
    LeadsToInv (s.putInt frD r rc) := by
  have raised := or_and_eq_zero h.fpscr_reserved hr
  unfold State.putInt
  dsimp only
  split
  · exact ((State.Inv.withSettled (s := s.drawWord.2.drawWord.2) h (fpscrStatus_reserved raised _ _ _)).putFpr
      _ _ _).fpDone rc
  · exact (h.withSettled (fpscrStatus_reserved raised _ _ _)).fpDone rc

theorem State.Inv.putFloatCompare (h : s.Inv) (n : BitVec 3) (c : BitVec 4) {exc : Word} (he : exc &&& 0x00000800 = 0)
    (rc : Bool) : LeadsToInv (s.putFloatCompare n c exc rc) := by
  have settled := h.withSettled (or_and_eq_zero (or_and_eq_zero (and_and_eq_zero_of_left (m := 0xFFFF0FFF) h.fpscr_reserved)
    (shiftLeft_and_eq_zero (c.setWidth 32) _ (n := 12) (by decide))) he)
  exact (State.Inv.ite (settled.undefineCrField _) (settled.setCrField _ _)).fpDone false

theorem State.Inv.putMove (h : s.Inv) (frD : Reg) (d : Dword) (rc : Bool) : LeadsToInv (s.putMove frD d rc) :=
  (h.putFpr false frD d).fpDone rc

theorem State.Inv.putFpscr (h : s.Inv) (m v : Word) (settles rc : Bool) : LeadsToInv (s.putFpscr m v settles rc) := by
  have moved : ((s.fpscr &&& ~~~(m &&& fpWritable)) ||| (v &&& m &&& fpWritable)) &&& 0x00000800 = 0 :=
    or_and_eq_zero (and_and_eq_zero_of_left h.fpscr_reserved) (and_and_eq_zero (by decide))
  cases settles
  · exact (h.withSummary moved).fpDone rc
  · exact (h.withSettled moved).fpDone rc

end
end Sys2Proof.Machine
end

section
/-! SUPPORT. Proofs/InvariantStorage.lean: loads, stores, storage control and the special registers keep the invariant (O58). -/

namespace Sys2Proof.Machine

section
variable {s t : State}

/-! ### Loads and stores -/

theorem State.Inv.updateLoad (h : s.Inv) (rD rA : Reg) (ea : Word) : (s.updateLoad rD rA ea).Inv :=
  State.Inv.ite (h.undefineGpr 0) (State.Inv.ite (h.undefineGpr rD) (h.writeGpr rA ea))

theorem State.Inv.updateBase (h : s.Inv) (rA : Reg) (ea : Word) : (s.updateBase rA ea).Inv :=
  State.Inv.ite (h.undefineGpr 0) (h.writeGpr rA ea)

theorem State.Inv.loadForm (h : s.Inv) {i : Instr} {u : Use} {f : AlignForm} {ea : Word} {n : Nat}
    {put : List Byte → State → State} {rest : State → State} (hput : ∀ b u, u.Inv → (put b u).Inv)
    (hrest : ∀ u, u.Inv → (rest u).Inv) : LeadsToInv (s.loadForm i u f ea n put rest) :=
  h.finish (s.loadOperands_within u _) _ f ea (fun _ _ hu => hput _ _ hu) hrest

/-- A load into a GPR. -/
theorem State.Inv.loadGpr (h : s.Inv) {i : Instr} {u : Use} {f : AlignForm} {ea : Word} {n : Nat} {rD : Reg}
    {value : List Byte → Word} {rest : State → State} (hrest : ∀ u, u.Inv → (rest u).Inv) :
    LeadsToInv (s.loadForm i u f ea n (fun b t => t.writeGpr rD (value b)) rest) :=
  h.loadForm (fun _ _ hu => hu.writeGpr rD _) hrest

theorem State.Inv.storeForm (h : s.Inv) {i : Instr} {u : Use} {f : AlignForm} {ea : Word} {bs : List Byte}
    {rest : State → State} (hrest : ∀ u, u.Inv → (rest u).Inv) : LeadsToInv (s.storeForm i u f ea bs rest) :=
  h.finish (s.storeOperands_within u _ _) _ f ea (fun _ _ hu => hu) hrest

theorem State.Inv.writeRegs (l : List Word) : ∀ {s : State}, s.Inv → ∀ r : Reg, (s.writeRegs r l).Inv := by
  induction l with
  | nil => exact fun h _ => h
  | cons v t ih => exact fun h r => ih (h.writeGpr r v) (r + 1)

theorem State.Inv.undefineRegs (k : Nat) : ∀ {s : State}, s.Inv → ∀ r : Reg, (s.undefineRegs r k).Inv := by
  induction k with
  | zero => exact fun h _ => h
  | succ k ih => exact fun h r => ih (h.undefineGpr r) (r + 1)

theorem State.Inv.drawUpTo (h : s.Inv) (k : Nat) : (s.drawUpTo k).2.Inv := h

theorem State.Inv.loadRegs (h : s.Inv) (i : Instr) (rD : Reg) (ea : Word) (n : Nat) (bad rc : Bool) :
    LeadsToInv (s.loadRegs i rD ea n bad rc) :=
  h.finishWith (s.loadOperands_within _ _) _ _ ea
    (fun _ _ hu => State.Inv.ite (State.Inv.undefineRegs _ hu rD) (State.Inv.writeRegs _ hu rD))
    (fun _ hu => hu.badRecordBit rc) fun _ _ hu => State.Inv.writeRegs _ (hu.drawUpTo _) rD

theorem State.Inv.storeRegs (h : s.Inv) (i : Instr) (f : AlignForm) (rS : Reg) (ea : Word) (n : Nat) (rc : Bool) :
    LeadsToInv (s.storeRegs i f rS ea n rc) :=
  h.finish (s.storeOperands_within _ _ _) _ f ea (fun _ _ hu => hu) fun _ hu => hu.badRecordBit rc

theorem LeadsToInv.ite {c : Prop} [Decidable c] {a b : Result} (ha : LeadsToInv a) (hb : LeadsToInv b) :
    LeadsToInv (if c then a else b) := by
  split <;> assumption

/-- An alignment test before an access. -/
theorem State.Inv.orAlignment (h : s.Inv) {c : Prop} [Decidable c] {w : Word} {f : AlignForm} {ea : Word} {k : Result}
    (hk : LeadsToInv k) : LeadsToInv (if c then .next (s.takeAlignment w f ea) else k) :=
  LeadsToInv.ite (h.takeAlignment w f ea).leads hk

theorem State.Inv.execLswx (h : s.Inv) (rD rA rB : Reg) (rc : Bool) : LeadsToInv (execLswx rD rA rB rc s) :=
  h.orAlignment (LeadsToInv.ite ((h.undefineGpr rD).badRecordBit rc).advance.leads (h.loadRegs _ _ _ _ _ _))

/-! ### Floating-point loads and stores -/

theorem State.Inv.fpLoadForm (h : s.Inv) {i : Instr} {f : AlignForm} {ea : Word} {n : Nat} {single : Bool} {frD : Reg}
    {value : List Byte → Dword} {rest : State → State} (hrest : ∀ u, u.Inv → (rest u).Inv) :
    LeadsToInv (s.fpLoadForm i f ea n (fun b t => t.putFpr single frD (value b)) rest) :=
  h.needFp (LeadsToInv.ite (h.loadForm (fun _ _ hu => hu.putFpr single frD _) hrest)
    (h.takeAlignment _ f ea).leads)

theorem State.Inv.fpStoreForm (h : s.Inv) {i : Instr} {f : AlignForm} {ea : Word} {bs : List Byte}
    {rest : State → State} (hrest : ∀ u, u.Inv → (rest u).Inv) : LeadsToInv (s.fpStoreForm i f ea bs rest) :=
  h.needFp (LeadsToInv.ite (h.storeForm hrest) (h.takeAlignment _ f ea).leads)

/-! ### Storage control -/

theorem State.Inv.withAddress (h : s.Inv) {i : Instr} {f : AlignForm} {u : Use} {ea : Word} {direct : State → Result}
    {k : Word → BitVec 4 → State → Result} (hd : ∀ t, t.Inv → LeadsToInv (direct t))
    (hk : ∀ pa w t, t.Inv → LeadsToInv (k pa w t)) : LeadsToInv (s.withAddress i f u ea direct k) := by
  have translated := h.storage (s.storageStep_translate u ea)
  unfold State.withAddress
  split <;> rename_i heq <;> rw [heq] at translated
  · exact hk _ _ _ translated
  · exact hd _ translated
  · exact translated.finish (failAcc_within _ u ea [] _) _ f ea (fun _ _ hu => hu) fun _ hu => hu

theorem State.storageStep_loadReserved (s : State) (wimg : BitVec 4) (pa : Word) :
    s.storageStep (s.loadReserved wimg pa).2 := by
  unfold State.loadReserved
  dsimp only
  split
  · exact State.storageStep_trans (s.storageStep_logTenure _ _ _ _) (State.storageStep_loadPhys _ _ _ _)
  · exact s.storageStep_loadPhys _ _ _

/-- The invariant does not speak of the reservation. -/
theorem State.Inv.withResv (h : s.Inv) (b : Bool) (a : BitVec 27) : State.Inv { s with resv := b, resvAddr := a } := h

theorem State.Inv.execLwarx (h : s.Inv) (rD rA rB : Reg) (rc : Bool) : LeadsToInv (execLwarx rD rA rB rc s) := by
  refine LeadsToInv.ite (h.withAddress (fun u hu => (hu.takeDsi _ _).leads) fun pa w u hu => ?_)
    (h.takeAlignment _ _ _).leads
  have loaded := (hu.storage (u.storageStep_loadReserved w pa)).withResv true (blockOf pa)
  exact ((loaded.writeGpr rD _).badRecordBit rc).advance.leads

theorem State.Inv.execStwcxRec (h : s.Inv) (rS rA rB : Reg) (rc : Bool) : LeadsToInv (execStwcxRec rS rA rB rc s) := by
  refine LeadsToInv.ite (h.withAddress (fun u hu => (hu.takeDsi _ _).leads) fun pa w u hu => ?_)
    (h.takeAlignment _ _ _).leads
  have stored (bs : List Byte) := (hu.storage (u.storageStep_storePart w true pa bs)).withResv false
  exact (((State.Inv.ite (stored _ _) hu).setCrField 0 _).badRecordBit !rc).advance.leads

theorem State.Inv.broadcast (h : s.Inv) (k : BusKind) (a : Word) : (s.broadcast k a).Inv := h

theorem State.Inv.touchAddress (h : s.Inv) (ea : Word) : LeadsToInv (s.touchAddress ea) := by
  have touched {pa : Word} {w : BitVec 4} {u : State} (hx : s.translateTouch ea = some (pa, w, u)) : u.Inv := by
    unfold State.translateTouch at hx
    split at hx
    · cases hx; exact h
    split at hx
    · split at hx <;> cases hx
      exact h
    dsimp only at hx
    split at hx
    · cases hx
    split at hx
    · cases hx
    split at hx <;> cases hx
    exact h.storage (s.storageStep_setTlb _ _)
  unfold State.touchAddress
  refine LeadsToInv.ite (leadsToInv_refused _) (LeadsToInv.ite (leadsToInv_refused _) ?_)
  split
  · exact h.advance.leads
  · rename_i pa w u heq
    exact (State.Inv.ite ((touched heq).storage (u.storageStep_blockForLoad w .read pa pa 0)) h).advance.leads

theorem State.Inv.onBlock (h : s.Inv) {i : Instr} {u : Use} {ea : Word} {k : BitVec 4 → Word → State → State}
    (hk : ∀ w pa t, t.Inv → (k w pa t).Inv) : LeadsToInv (s.onBlock i u ea k) :=
  h.withAddress (fun _ ht => ht.advance.leads) fun pa w t ht => (hk w pa t ht).advance.leads

theorem State.Inv.putD (h : s.Inv) (l : DLine) : (s.putD l).Inv := h

theorem State.Inv.logBlockOp (h : s.Inv) (k : BusKind) (w : BitVec 4) (pa : Word) : (s.logBlockOp k w pa).Inv := h

theorem State.Inv.writeBack (h : s.Inv) (l : DLine) : (s.writeBack l).Inv := h.storage (s.storageStep_writeBack l)

theorem State.Inv.zeroBlock (h : s.Inv) (w : BitVec 4) (pa : Word) : (s.zeroBlock w pa).Inv := by
  unfold State.zeroBlock
  dsimp only
  split
  · exact (State.Inv.ite (h.logBlockOp _ _ _) h).putD _
  · exact ((h.storage (s.storageStep_evictD _)).logBlockOp _ _ _).putD _

theorem State.Inv.storeBlock (h : s.Inv) (w : BitVec 4) (pa : Word) : (s.storeBlock w pa).Inv := by
  unfold State.storeBlock
  split
  · exact State.Inv.ite ((h.writeBack _).putD _) (h.logBlockOp _ _ _)
  · exact h.logBlockOp _ _ _

/-- The invariant does not speak of the data cache. -/
theorem State.Inv.withDcache (h : s.Inv) (c : List DLine) : State.Inv { s with dcache := c } := h

theorem State.Inv.flushBlock (h : s.Inv) (w : BitVec 4) (pa : Word) : (s.flushBlock w pa).Inv := by
  unfold State.flushBlock
  split
  · exact (State.Inv.ite (h.writeBack _) (h.logBlockOp _ _ _)).withDcache _
  · exact h.logBlockOp _ _ _

theorem State.Inv.icbiBlock (h : s.Inv) (w : BitVec 4) (pa : Word) : (s.icbiBlock w pa).Inv :=
  (h.invalidateI (blockOf pa)).storage (State.storageStep_logTenure _ _ _ _ _)

theorem State.Inv.discardBlock (h : s.Inv) (w : BitVec 4) (pa : Word) : (s.discardBlock w pa).Inv :=
  State.Inv.ite ((h.logBlockOp .kill w pa).withDcache _) (h.logBlockOp .kill w pa)

theorem State.Inv.external (h : s.Inv) {i : Instr} {u : Use} {ea : Word} {k : Word → State → Result}
    (hk : ∀ pa t, t.Inv → LeadsToInv (k pa t)) : LeadsToInv (s.external i u ea k) :=
  h.orAlignment (LeadsToInv.ite (h.takeDsi _ _).leads
    (h.withAddress (fun _ ht => (ht.takeDsi _ _).leads) fun pa _ t ht => hk pa t ht))

theorem State.Inv.logBus (h : s.Inv) (op : BusOp) : (s.logBus op).Inv := h

theorem State.Inv.drawWord (h : s.Inv) : s.drawWord.2.Inv := h

/-! ### Special registers -/

theorem State.Inv.writeMmcr0 (h : s.Inv) (v : Word) : (s.writeMmcr0 v).Inv := by
  unfold State.writeMmcr0
  dsimp only
  split <;> exact h

/-- Every write of a special register drops the reserved bits (R14). -/
theorem State.Inv.writeSpr (h : s.Inv) (n : Nat) (v : Word) : (s.writeSpr n v).Inv := by
  unfold State.writeSpr
  split
  case h_1 => exact h.withXer (and_and_eq_zero (by decide))
  case h_7 => exact h.withSdr1 (and_and_eq_zero (by decide))
  case h_14 => exact h.withEar (and_and_eq_zero (by decide))
  case h_18 => exact h.writeMmcr0 v
  case h_22 => exact h.withMmcr1 (and_and_eq_zero (by decide))
  case h_26 => exact h.withHid0 (and_and_eq_zero (by decide))
  case h_31 => exact State.Inv.ite h h
  all_goals exact h

theorem State.Inv.readSpr (h : s.Inv) (n : Nat) : (s.readSpr n).2.Inv := by
  unfold State.readSpr
  split
  case h_19 => split <;> exact h
  case h_23 => split <;> exact h
  all_goals exact h

theorem State.Inv.checkSpr (h : s.Inv) (spr : BitVec 10) (defined : Bool) {k : Result} (hk : LeadsToInv k) :
    LeadsToInv (s.checkSpr spr defined k) :=
  LeadsToInv.ite (h.takeProgram _).leads (LeadsToInv.ite hk (h.takeProgram _).leads)

theorem State.Inv.execMcrxr (h : s.Inv) (n : BitVec 3) : LeadsToInv (execMcrxr n s) :=
  ((h.setCrField n.toNat (getField4 s.xer 0)).withXer (and_and_eq_zero_of_left h.xer_reserved)).advance.leads

theorem State.Inv.execMtmsr (h : s.Inv) (rS : Reg) : LeadsToInv (execMtmsr rS s) :=
  h.supervisorOnly (h.withMsr (and_and_eq_zero (by decide))).advance.recheckFp.leads

theorem State.Inv.execMcrfs (h : s.Inv) (crfD crfS : BitVec 3) : LeadsToInv (execMcrfs crfD crfS s) :=
  h.needFp (((h.setCrField crfD.toNat _).withSummary (and_and_eq_zero_of_left h.fpscr_reserved)).fpDone false)

theorem State.Inv.execMtfsb1 (h : s.Inv) (b : BitVec 5) (rc : Bool) : LeadsToInv (execMtfsb1 b rc s) :=
  h.needFp ((h.withSettled (or_and_eq_zero h.fpscr_reserved (and_and_eq_zero (by decide)))).fpDone rc)

theorem State.Inv.execMftb (h : s.Inv) (rD : Reg) (n : BitVec 10) : LeadsToInv (execMftb rD n s) :=
  LeadsToInv.ite (h.writeGpr _ _).advance.leads (LeadsToInv.ite (h.writeGpr _ _).advance.leads (h.takeProgram _).leads)

theorem State.Inv.withCr (h : s.Inv) (w : Word) : State.Inv { s with cr := w } := h

theorem State.Inv.putSr (h : s.Inv) (n : BitVec 4) (v : Word) : LeadsToInv (s.putSr n v) :=
  h.supervisorOnly (State.Inv.advance (s := s.writeSr n v) h).leads

theorem State.Inv.getSr (h : s.Inv) (rD : Reg) (n : BitVec 4) : LeadsToInv (s.getSr rD n) :=
  h.supervisorOnly (h.writeGpr _ _).advance.leads

theorem State.Inv.invalidateTlb (h : s.Inv) (i : BitVec 6) : (s.invalidateTlb i).Inv := h

theorem compareSnan_reserved (a b : Dword) : compareSnan a b &&& 0x00000800 = 0 :=
  ite_and_eq_zero (by decide) (by decide)

theorem compareOrdered_reserved (w : Word) (a b : Dword) : compareOrdered w a b &&& 0x00000800 = 0 :=
  ite_and_eq_zero (ite_and_eq_zero (by decide) (by decide)) (ite_and_eq_zero (by decide) (by decide))

end
end Sys2Proof.Machine
end

section
/-! SUPPORT. Proofs/InvariantStep.lean: every instruction and every step keeps the invariant (O58). -/

namespace Sys2Proof.Machine

section
variable {s t : State}

/-! ### Every instruction -/

/-- Every instruction keeps the invariant: each form is one of the shared operations above. -/
theorem State.Inv.exec (h : s.Inv) (i : Instr) : LeadsToInv (exec i s) := by
  cases i with
  | addi | addis | mulli | mulhw | mulhwu | andiRec | andisRec | ori | oris | xori | xoris | and | or | xor | nand |
  nor | eqv | andc | orc | extsb | extsh | cntlzw | rlwinm | rlwnm | rlwimi | slw | srw =>
    exact h.putResult ..
  | addic | addicRec | subfic | add | subf | addc | subfc | adde | subfe | addme | subfme | addze | subfze =>
    exact h.putSum ..
  | neg | mullw => exact (h.overflowIf _ _).putResult ..
  | divw => exact h.execDivw ..
  | divwu => exact h.execDivwu ..
  | cmpi | cmp | cmpli | cmpl => exact h.putCompare ..
  | srawi | sraw => exact h.putAlgebraic ..
  | fadd | fsub => exact h.needFp (h.putFloat _ _ (fpAdd_sparesReserved ..) _)
  | fadds | fsubs => exact h.needFp (h.putSingle _ _ (by decide) (fpAdd_sparesReserved ..) _)
  | fmul => exact h.needFp (h.putFloat _ _ (fpMul_sparesReserved ..) _)
  | fmuls => exact h.needFp (h.putSingle _ _ (by decide) (fpMul_sparesReserved ..) _)
  | fdiv => exact h.needFp (h.putFloat _ _ (fpDiv_sparesReserved ..) _)
  | fdivs => exact h.needFp (h.putSingle _ _ (by decide) (fpDiv_sparesReserved ..) _)
  | fres | frsqrte => exact h.needFp (h.putFloat _ _ (estimateOut_sparesReserved (by decide) _) _)
  | fsel | fmr | fneg | fabs | fnabs => exact h.needFp (h.putMove ..)
  | fmadd | fmsub | fnmadd | fnmsub => exact h.needFp (h.putFloat _ _ (fpMulAdd_sparesReserved ..) _)
  | fmadds | fmsubs | fnmadds | fnmsubs => exact h.needFp (h.putSingle _ _ (by decide) (fpMulAdd_sparesReserved ..) _)
  | frsp => exact h.needFp (h.putFloat _ _ (fpRoundSingle_sparesReserved ..) _)
  | fctiw | fctiwz => exact h.needFp (h.putInt _ (fpToInt_reserved _ _ _) _)
  | fcmpu => exact h.needFp (h.putFloatCompare _ _ (compareSnan_reserved _ _) _)
  | fcmpo =>
    exact h.needFp (h.putFloatCompare _ _ (or_and_eq_zero (compareSnan_reserved _ _) (compareOrdered_reserved _ _ _)) _)
  | mffs => exact h.needFp (h.drawWord.putMove ..)
  | mcrfs => exact h.execMcrfs ..
  | mtfsfi | mtfsf | mtfsb0 => exact h.needFp (h.putFpscr ..)
  | mtfsb1 => exact h.execMtfsb1 ..
  | lbz | lhz | lha | lwz => exact h.loadGpr fun _ hu => hu
  | lbzx | lhzx | lhax | lwzx => exact h.loadGpr fun _ hu => hu.badRecordBit _
  | lhbrx | lwbrx => exact h.loadGpr (value := fun b => wordOf b.reverse) fun _ hu => hu.badRecordBit _
  | lbzu | lhzu | lhau | lwzu => exact h.loadGpr fun _ hu => hu.updateLoad ..
  | lbzux | lhzux | lhaux | lwzux => exact h.loadGpr fun _ hu => (hu.updateLoad ..).badRecordBit _
  | stb | sth | stw => exact h.storeForm fun _ hu => hu
  | stbx | sthx | stwx | sthbrx | stwbrx => exact h.storeForm fun _ hu => hu.badRecordBit _
  | stbu | sthu | stwu => exact h.storeForm fun _ hu => hu.updateBase ..
  | stbux | sthux | stwux => exact h.storeForm fun _ hu => (hu.updateBase ..).badRecordBit _
  | lmw | lswi => exact h.orAlignment (h.loadRegs ..)
  | stmw | stswi | stswx => exact h.orAlignment (h.storeRegs ..)
  | lswx => exact h.execLswx ..
  | lfs | lfd => exact h.fpLoadForm fun _ hu => hu
  | lfsx | lfdx => exact h.fpLoadForm fun _ hu => hu.badRecordBit _
  | lfsu | lfdu => exact h.fpLoadForm fun _ hu => hu.updateBase ..
  | lfsux | lfdux => exact h.fpLoadForm fun _ hu => (hu.updateBase ..).badRecordBit _
  | stfs | stfd => exact h.fpStoreForm fun _ hu => hu
  | stfsx | stfdx => exact h.fpStoreForm fun _ hu => hu.badRecordBit _
  | stfsu | stfdu => exact h.fpStoreForm fun _ hu => hu.updateBase ..
  | stfsux | stfdux => exact h.fpStoreForm fun _ hu => (hu.updateBase ..).badRecordBit _
  | stfiwx => exact h.fpStoreForm fun _ hu => (State.Inv.ite hu.drawWord hu).badRecordBit _
  | b => exact h.execB ..
  | bc => exact h.execBc ..
  | bclr => exact h.branchTo _ _ _ (aligned_alignWord _)
  | bcctr => exact h.execBcctr ..
  | crand | cror | crxor | crnand | crnor | creqv | crandc | crorc => exact h.putCrBit ..
  | mcrf => exact (h.setCrField _ _).advance.leads
  | twi | tw => exact h.trapIf _
  | sc => exact (h.takeException (by decide) _ _).leads
  | rfi => exact h.supervisorOnly h.returnFromException.recheckFp.leads
  | mtmsr => exact h.execMtmsr ..
  | mfmsr => exact h.supervisorOnly (h.writeGpr _ _).advance.leads
  | mtcrf => exact (h.withCr _).advance.leads
  | mcrxr => exact h.execMcrxr ..
  | mfcr => exact (h.writeGpr _ _).advance.leads
  | mtspr => exact h.checkSpr _ _ ((h.writeSpr _ _).badRecordBit _).advance.leads
  | mfspr => exact h.checkSpr _ _ (((h.readSpr _).writeGpr _ _).badRecordBit _).advance.leads
  | mftb => exact h.execMftb ..
  | lwarx => exact h.execLwarx ..
  | stwcxRec => exact h.execStwcxRec ..
  | sync => exact ((h.broadcast .sync 0).badRecordBit _).advance.leads
  | eieio => exact (h.broadcast .eieio 0).advance.leads
  | isync => exact h.advance.leads
  | dcbt | dcbtst => exact h.touchAddress _
  | dcbz => exact h.onBlock fun _ _ _ hu => hu.zeroBlock _ _
  | dcbst => exact h.onBlock fun _ _ _ hu => hu.storeBlock _ _
  | dcbf => exact h.onBlock fun _ _ _ hu => hu.flushBlock _ _
  | icbi => exact h.onBlock fun _ _ _ hu => hu.icbiBlock _ _
  | dcbi => exact h.supervisorOnly (h.onBlock fun _ _ _ hu => hu.discardBlock _ _)
  | eciwx => exact h.external fun _ _ hu => ((hu.drawWord.logBus _).writeGpr _ _).advance.leads
  | ecowx => exact h.external fun _ _ hu => (hu.logBus _).advance.leads
  | mtsr | mtsrin => exact h.putSr ..
  | mfsr | mfsrin => exact h.getSr ..
  | tlbie => exact h.supervisorOnly ((h.invalidateTlb _).broadcast .tlbInvalidate _).advance.leads
  | tlbsync => exact h.supervisorOnly (h.broadcast .tlbSync 0).advance.leads

/-! ### A step -/

theorem State.Inv.noteMoved (h : t.Inv) (s : State) (i : Instr) : (t.noteMoved s i).Inv := h

theorem State.Inv.withLastIa (h : s.Inv) (a : Word) : State.Inv { s with lastIa := a } := h

theorem State.Inv.complete (h : t.Inv) (s : State) (i : Instr) : (t.complete s i).Inv :=
  State.Inv.ite (State.Inv.ite (h.withLastIa s.pc) h)
    (State.Inv.ite ((h.withLastIa s.pc).takeException (by decide) _ _) (h.withLastIa s.pc))

theorem State.Inv.runInstr (h : s.Inv) (i : Instr) : LeadsToInv (s.runInstr i) := by
  constructor
  intro t ht
  obtain ⟨u, hu, rfl⟩ := finishInstr_next.1 ht
  have started : State.Inv { s with took := false } := h
  exact (((started.exec i).inv u hu).noteMoved s i).complete s i

theorem State.Inv.runWord (h : s.Inv) (w : Word) : LeadsToInv (s.runWord w) := by
  unfold State.runWord
  split
  · exact (h.takeProgram _).leads
  · exact h.runInstr _

/-- The invariant does not speak of the instruction cache and the bus log. -/
theorem State.Inv.withIcache (h : s.Inv) (c : List ILine) (l : List BusOp) :
    State.Inv { s with icache := c, busLog := l } := h

theorem State.Inv.fetchPhys (h : s.Inv) (wimg : BitVec 4) (pa : Word) : (s.fetchPhys wimg pa).2.Inv := by
  have read := h.storage (s.storageStep_readBlock (blockOf pa))
  unfold State.fetchPhys
  dsimp only
  split
  · exact read.logBus _
  split
  · exact h.withIcache _ _
  split
  · exact read.logBus _
  · exact read.withIcache _ _

theorem State.Inv.fetchWord (h : s.Inv) (pa : Word) (wimg : BitVec 4) : LeadsToInv (s.fetchWord pa wimg) := by
  have fetched := h.fetchPhys wimg (s.mungeWord pa)
  exact LeadsToInv.ite (h.takeException (by decide) _ _).leads (LeadsToInv.ite fetched.leads (fetched.runWord _))

theorem State.Inv.fetchAndRun (h : s.Inv) : LeadsToInv s.fetchAndRun := by
  have translated := h.storage (s.storageStep_translate .fetch s.pc)
  have isi (info : Word) {u : State} (hu : u.Inv) : LeadsToInv (.next (u.takeIsi info)) :=
    (hu.takeException (by decide) _ _).leads
  unfold State.fetchAndRun
  split <;> rename_i heq <;> rw [heq] at translated
  case h_1 => exact translated.fetchWord _ _
  case h_3 => exact leadsToInv_refused _
  all_goals exact isi _ translated

/-- The invariant of every step. -/
theorem State.Inv.step (h : s.Inv) : LeadsToInv (step s) := by
  constructor
  intro t ht
  obtain ⟨-, rfl⟩ | ⟨-, -, hrun⟩ := State.advanceMachine_cases ht
  · exact h.boundary
  · exact h.boundary.fetchAndRun.inv t hrun

end
end Sys2Proof.Machine

open Sys2Proof.Machine in
/-- Settles O58: the boundary keeps the invariant, and so does each instruction. -/
theorem stepKeepsInvariant : Obligations.StepKeepsInvariant := fun _ t h ht => h.step.inv t ht
end

section
/-! SUPPORT. Proofs/Additions.lean: the additions and subtractions (O4). -/

namespace Sys2Proof.Machine

/-- A word's complement plus one is its negation, which overflows for the most negative word only (R337). -/
theorem addOverflow_neg (a : Word) :
    addOverflow (~~~a) 0 ((sum33 (~~~a) 0 true).setWidth 32) = (a == 0x80000000) := by
  have ha := a.toInt_eq_toNat_cond
  have hn := (~~~a).toInt_eq_toNat_cond
  have hlt := a.isLt
  have heq : a = 0x80000000 ↔ a.toNat = 2147483648 := by rw [← BitVec.toNat_inj]; rfl
  rw [BitVec.toNat_not] at hn
  rw [addOverflow_eq, outOfWord, Bool.eq_iff_iff]
  simp only [Bool.or_eq_true, decide_eq_true_eq, beq_iff_eq, heq]
  have h0 : (0 : Word).toInt = 0 := rfl
  rw [h0, Bool.toNat_true]
  split at hn <;> omega

/-- `neg` is the addition of the complement and one (R337). -/
theorem execNeg_eq_putSum (s : State) (rD rA : Reg) (oe rc : Bool) :
    execNeg rD rA oe rc s = s.putSum rD (~~~(s.readGpr rA)) 0 true false oe rc := by
  have value : ~~~(s.readGpr rA) + 1 = (sum33 (~~~(s.readGpr rA)) 0 true).setWidth 32 := by
    rw [sum33_low]
    apply BitVec.eq_of_toNat_eq
    simp [BitVec.toNat_add]
  unfold execNeg State.putSum
  dsimp only
  rw [addOverflow_neg, value]
  rfl

/-- Settles O4: each form is one addition with flags, `neg` too; `addi` and `addis` write no flag. -/
theorem additionsAndSubtractions : Obligations.AdditionsAndSubtractions := by
  intro s rD rA rB imm oe rc
  have neg : ∃ t, exec (.neg rD rA oe rc) s = .next t ∧ s.summed t rD (~~~(s.readGpr rA)) 0 true false oe rc := by
    rw [show exec (.neg rD rA oe rc) s = execNeg rD rA oe rc s from rfl, execNeg_eq_putSum]
    exact putSum_spec ..
  exact ⟨putSum_spec .., putSum_spec .., putSum_spec .., putSum_spec .., putSum_spec .., putSum_spec ..,
    putSum_spec .., putSum_spec .., putSum_spec .., putSum_spec .., neg, putSum_spec .., putSum_spec ..,
    putSum_spec .., rfl, rfl⟩

end Sys2Proof.Machine
end

section
/-! SUPPORT. Proofs/SprMoves.lean: what a special register reads after it was written (O20). -/

namespace Sys2Proof.Machine

/-! ### Time base halves -/

theorem toNat_append_eq {n m : Nat} (x : BitVec n) (y : BitVec m) : (x ++ y).toNat = x.toNat * 2 ^ m + y.toNat := by
  rw [BitVec.toNat_append, ← Nat.shiftLeft_add_eq_or_of_lt y.isLt, Nat.shiftLeft_eq]

theorem append_eq_ofNat (a b : Word) : (a ++ b : Dword) = BitVec.ofNat 64 (a.toNat * 4294967296 + b.toNat) := by
  have ha := a.isLt
  have hb := b.isLt
  apply BitVec.eq_of_toNat_eq
  rw [toNat_append_eq, BitVec.toNat_ofNat]
  omega

theorem writeSpr_tbl (s : State) (v : Word) :
    s.writeSpr 284 v = { s with tb := BitVec.ofNat 64 (s.tb.toNat / 4294967296 * 4294967296 + v.toNat) } := by
  have upper : (s.tb.extractLsb' 32 32).toNat = s.tb.toNat / 4294967296 := by
    have := s.tb.isLt
    rw [BitVec.extractLsb'_toNat, Nat.shiftRight_eq_div_pow]
    omega
  rw [← upper, ← append_eq_ofNat]
  rfl

theorem writeSpr_tbu (s : State) (v : Word) :
    s.writeSpr 285 v = { s with tb := BitVec.ofNat 64 (v.toNat * 4294967296 + s.tb.toNat % 4294967296) } := by
  have lower : (s.tb.extractLsb' 0 32).toNat = s.tb.toNat % 4294967296 := by
    rw [BitVec.extractLsb'_toNat, Nat.shiftRight_zero]
  rw [← lower, ← append_eq_ofNat]
  rfl

/-! ### BAT registers (R205, R206) -/

theorem readBat_writeBat_upper (a : Vector Bat 4) (m v : Word) {k : BitVec 3} (hk : k.getLsbD 0 = false) :
    readBat (writeBat a m k v) k = v &&& 0xFFFE1FFF := by
  simp only [readBat, writeBat, Vector.getElem_set_self, hk]
  rfl

theorem readBat_writeBat_lower (a : Vector Bat 4) (m v : Word) {k : BitVec 3} (hk : k.getLsbD 0 = true) :
    readBat (writeBat a m k v) k = v &&& m := by
  simp only [readBat, writeBat, Vector.getElem_set_self, hk]
  rfl

theorem writeSpr_ibat (s : State) (v : Word) {n : Nat} (h1 : 528 ≤ n) (h2 : n < 536) :
    s.writeSpr n v =
      { s with mmu := { s.mmu with ibat := writeBat s.mmu.ibat ibatLowerMask (BitVec.ofNat 3 n) v } } := by
  interval_cases n <;> rfl

theorem writeSpr_dbat (s : State) (v : Word) {n : Nat} (h1 : 536 ≤ n) (h2 : n < 544) :
    s.writeSpr n v =
      { s with mmu := { s.mmu with dbat := writeBat s.mmu.dbat dbatLowerMask (BitVec.ofNat 3 n) v } } := by
  interval_cases n <;> rfl

theorem readSpr_ibat (s : State) {n : Nat} (h1 : 528 ≤ n) (h2 : n < 536) :
    s.readSpr n = (readBat s.mmu.ibat (BitVec.ofNat 3 n), s) := by
  interval_cases n <;> rfl

theorem readSpr_dbat (s : State) {n : Nat} (h1 : 536 ≤ n) (h2 : n < 544) :
    s.readSpr n = (readBat s.mmu.dbat (BitVec.ofNat 3 n), s) := by
  interval_cases n <;> rfl

/-! ### A register read after it was written -/

/-- The registers that hold every bit written to them. -/
def wholeSprs : List Nat :=
  [8, 9, 18, 19, 22, 26, 27, 272, 273, 274, 275, 953, 954, 957, 958, 1010, 1013, 1023]

/-- The registers with reserved bits, but for the BATs. -/
def maskedSprs : List Nat := [1, 25, 282, 956, 1008]

theorem readSpr_writeSpr_whole (s : State) (v : Word) {n : Nat} (hn : n ∈ wholeSprs) :
    ((s.writeSpr n v).readSpr n).1 = v &&& sprMask n := by
  have all : v &&& 0xFFFFFFFF = v := BitVec.and_allOnes
  fin_cases hn <;> exact all.symm

theorem readSpr_writeSpr_masked (s : State) (v : Word) {n : Nat} (hn : n ∈ maskedSprs) :
    ((s.writeSpr n v).readSpr n).1 = v &&& sprMask n := by
  fin_cases hn <;> rfl

theorem readSpr_writeSpr_bat (s : State) (v : Word) {n : Nat} (h1 : 528 ≤ n) (h2 : n < 544) :
    ((s.writeSpr n v).readSpr n).1 = v &&& sprMask n := by
  have parity : (BitVec.ofNat 3 n).getLsbD 0 = decide (n % 2 = 1) := by
    rw [BitVec.getLsbD_ofNat, Nat.testBit_zero]
    rfl
  have mask : sprMask n = if n % 2 = 0 then 0xFFFE1FFF else if n < 536 then ibatLowerMask else dbatLowerMask := by
    unfold sprMask
    rw [if_neg (by omega), if_neg (by omega), if_neg (by omega), if_neg (by omega), if_neg (by omega)]
    by_cases hp : n % 2 = 0
    · rw [if_pos hp, if_pos ⟨h1, h2, hp⟩]
    rw [if_neg hp, if_neg fun h => hp h.2.2]
    by_cases hi : n < 536
    · rw [if_pos hi, if_pos ⟨h1, hi⟩]; rfl
    · rw [if_neg hi, if_neg (by omega), if_pos ⟨by omega, h2⟩]; rfl
  rw [mask]
  by_cases hi : n < 536
  · rw [writeSpr_ibat s v h1 hi, readSpr_ibat _ h1 hi]
    by_cases hp : n % 2 = 0
    · rw [if_pos hp]
      exact readBat_writeBat_upper _ _ _ (by rw [parity]; simp [hp])
    · rw [if_neg hp, if_pos hi]
      exact readBat_writeBat_lower _ _ _ (by rw [parity]; simpa using hp)
  · rw [writeSpr_dbat s v (by omega) h2, readSpr_dbat _ (by omega) h2]
    by_cases hp : n % 2 = 0
    · rw [if_pos hp]
      exact readBat_writeBat_upper _ _ _ (by rw [parity]; simp [hp])
    · rw [if_neg hp, if_neg hi]
      exact readBat_writeBat_lower _ _ _ (by rw [parity]; simpa using hp)

theorem readSpr_writeSpr_mmcr0 (s : State) (v : Word) : ((s.writeSpr 952 v).readSpr 952).1 = v &&& sprMask 952 := by
  have written : (s.writeMmcr0 v).pm.mmcr0 = v := by
    unfold State.writeMmcr0
    dsimp only
    split <;> rfl
  have all : v &&& 0xFFFFFFFF = v := BitVec.and_allOnes
  exact written.trans all.symm

/-- SIA and SDA hold what was written while MMCR0[ENINT] = 0. -/
theorem readSpr_writeSpr_sampled (s : State) (v : Word) {n : Nat} (hn : n ∈ [955, 959])
    (he : beBit s.pm.mmcr0 5 = false) : ((s.writeSpr n v).readSpr n).1 = v &&& sprMask n := by
  have all : v &&& 0xFFFFFFFF = v := BitVec.and_allOnes
  fin_cases hn
  · simpa [State.writeSpr, State.readSpr, he, sprMask] using all.symm
  · simpa [State.writeSpr, State.readSpr, he, sprMask] using all.symm

/-- The readable registers by how they read back. -/
theorem readableSprs_cases {n : Nat} (hn : n ∈ readableSprs) :
    n ∈ [287, 1009] ∨ n ∈ wholeSprs ∨ n ∈ maskedSprs ∨ (528 ≤ n ∧ n < 544) ∨ n = 952 ∨ n ∈ [955, 959] := by
  revert n
  decide

/-- A register reads as written, without its reserved bits; PVR and HID1 as before (R664). -/
theorem readSpr_writeSpr (s : State) (v : Word) {n : Nat} (hn : n ∈ readableSprs)
    (hs : beBit s.pm.mmcr0 5 = false ∨ (n ≠ 955 ∧ n ≠ 959)) : ((s.writeSpr n v).readSpr n).1 =
      if n = 287 ∨ n = 1009 then (s.readSpr n).1 else v &&& sprMask n := by
  by_cases hc : n = 287 ∨ n = 1009
  · rw [if_pos hc]
    rcases hc with rfl | rfl <;> rfl
  rw [if_neg hc]
  obtain h | h | h | ⟨h1, h2⟩ | rfl | h := readableSprs_cases hn
  · exact absurd (by simpa using h) hc
  · exact readSpr_writeSpr_whole s v h
  · exact readSpr_writeSpr_masked s v h
  · exact readSpr_writeSpr_bat s v h1 h2
  · exact readSpr_writeSpr_mmcr0 s v
  · refine readSpr_writeSpr_sampled s v h (hs.resolve_right fun ⟨h955, h959⟩ => ?_)
    fin_cases h
    · exact h955 rfl
    · exact h959 rfl

/-! ### The moves -/

theorem State.writeSpr_msr (s : State) (n : Nat) (v : Word) : (s.writeSpr n v).msr = s.msr := by
  unfold State.writeSpr
  split
  case h_18 => unfold State.writeMmcr0; dsimp only; split <;> rfl
  case h_31 => split <;> rfl
  all_goals rfl

/-- A defined SPR number in a mode that may access it passes the test of R662. -/
theorem State.checkSpr_permitted {s : State} {n : BitVec 10} (hp : s.msrPR = false ∨ n.getLsbD 4 = false) (k : Result) :
    s.checkSpr n true k = k := by
  have : (s.msrPR && n.getLsbD 4) = false := by
    rcases hp with h | h <;> rw [h]
    · rfl
    · exact Bool.and_false _
  rw [State.checkSpr, this]
  rfl

theorem exec_mtspr_permitted {s : State} {n : BitVec 10} (hp : s.msrPR = false ∨ n.getLsbD 4 = false)
    (hn : n.toNat ∈ writableSprs) (rS : Reg) :
    exec (.mtspr rS n false) s = .next (s.writeSpr n.toNat (s.readGpr rS)).advance := by
  change s.checkSpr n (writableSprs.contains n.toNat) _ = _
  rw [List.contains_iff_mem.2 hn, State.checkSpr_permitted hp]
  rfl

theorem exec_mfspr_permitted {s : State} {n : BitVec 10} (hp : s.msrPR = false ∨ n.getLsbD 4 = false)
    (hn : n.toNat ∈ readableSprs) (rD : Reg) :
    exec (.mfspr rD n false) s =
      .next ((s.readSpr n.toNat).2.writeGpr rD (s.readSpr n.toNat).1).advance := by
  change s.checkSpr n (readableSprs.contains n.toNat) _ = _
  rw [List.contains_iff_mem.2 hn, State.checkSpr_permitted hp]
  rfl

/-- No special register is the program counter. -/
theorem State.readSpr_advance (s : State) (n : Nat) : (s.advance.readSpr n).1 = (s.readSpr n).1 := by
  have sampled (w : Word) : (if beBit s.pm.mmcr0 5 then s.advance.drawWord else (w, s.advance)).1 =
      (if beBit s.pm.mmcr0 5 then s.drawWord else (w, s)).1 := by
    cases beBit s.pm.mmcr0 5 <;> rfl
  unfold State.readSpr
  split
  case h_19 => exact sampled s.pm.sia
  case h_23 => exact sampled s.pm.sda
  all_goals rfl

/-- Settles O20: the moves complete where they are permitted, and a register reads back by its kind. -/
theorem sprMovesComplete : Obligations.SprMovesComplete := by
  intro s rS rD n hp hn t
  refine ⟨exec_mtspr_permitted hp hn rS, fun h => ?_, fun h => ?_, fun hr hs => ?_⟩
  · subst h
    exact congrArg State.advance (writeSpr_tbl s _)
  · subst h
    exact congrArg State.advance (writeSpr_tbu s _)
  · have hpt : t.msrPR = false ∨ n.getLsbD 4 = false := by
      have : t.msrPR = s.msrPR := congrArg (beBit · 17) (State.writeSpr_msr s n.toNat (s.readGpr rS))
      rwa [this]
    refine ⟨_, exec_mfspr_permitted hpt hr rD, ?_⟩
    rw [State.readGpr_advance, State.readGpr_writeGpr_same, State.readSpr_advance]
    exact readSpr_writeSpr s _ hr hs

end Sys2Proof.Machine
end

section
/-! SUPPORT. Proofs/MemoryMap.lean: accesses that go straight to memory, and what answers them (O32). -/

namespace Sys2Proof.Machine

/-! ### What answers at a block (R10, R197; 92 D5) -/

theorem regionKind_beq (a b : RegionKind) : (a == b) = decide (a = b) := rfl

/-- A read draws a free value where no memory is, and a hole notes the TEA. -/
theorem State.readBlock_state (s : State) (b : BitVec 27) : (s.readBlock b).2 =
    { s with fresh := (s.readBlock b).2.fresh, tea := s.tea || s.kindOf b == .hole } := by
  unfold State.readBlock
  cases s.kindOf b <;> simp [State.drawBlock, regionKind_beq]

/-- A write reaches memory in RAM only and the bus at a device, and a hole notes the TEA. -/
theorem State.writeBlock_state (s : State) (b : BitVec 27) (m : List Host.Cell) (ws : List (Word × Byte)) :
    s.writeBlock b m ws = { s with
      mem := if s.kindOf b = .ram then m else s.mem
      busLog := if s.kindOf b = .device then .deviceWrite ws :: s.busLog else s.busLog
      tea := s.tea || s.kindOf b == .hole } := by
  unfold State.writeBlock
  cases s.kindOf b <;> simp [State.logBus, regionKind_beq]

/-! ### Access without translation or cache -/

theorem beBit_of_low_zero {w : Word} (h : w &&& 3 = 0) : beBit w 30 = false ∧ beBit w 31 = false := by
  have bit (i : Nat) : (w &&& 3).getLsbD i = false := by
    rw [h]
    exact BitVec.getLsbD_zero
  have h0 := bit 0
  have h1 := bit 1
  rw [BitVec.getLsbD_and] at h0 h1
  have h1 : w.getLsbD 1 = false := by simpa using h1
  have h0 : w.getLsbD 0 = false := by simpa using h0
  exact ⟨h1, h0⟩

theorem State.batHits_bare {s : State} (h : s.bareAccess) (pr : Bool) (ea : Word) : batHits s.mmu.dbat pr ea = [] := by
  obtain ⟨-, -, -, -, hbat, -⟩ := h
  refine List.filter_eq_nil_iff.2 fun b hb => ?_
  obtain ⟨k, hk, rfl⟩ := Vector.getElem_of_mem (Vector.mem_toList_iff.1 hb)
  obtain ⟨h30, h31⟩ := beBit_of_low_zero (hbat ⟨k, hk⟩)
  have invalid : Bat.validFor s.mmu.dbat[k] pr = false := by
    cases pr
    · exact h30
    · exact h31
  simp [Bat.hits, invalid]

theorem State.dabrMatch_bare {s : State} (h : s.bareAccess) (u : Use) (ea : Word) : s.dabrMatch u ea = false := by
  obtain ⟨-, -, -, hdabr, -, -⟩ := h
  obtain ⟨h30, h31⟩ := beBit_of_low_zero hdabr
  simp [State.dabrMatch, h30, h31]

/-- A plain load or store is not translated (R202). -/
theorem State.translate_bare {s : State} (h : s.bareAccess) {u : Use} (hu : u = .load ∨ u = .store) (ea : Word) :
    s.translate u ea = (.mapped ea 0b0011, s) := by
  have hdata : u ≠ .fetch := by rcases hu with rfl | rfl <;> decide
  have hwimg : realWimg u = 0b0011 := if_neg hdata
  have hattr (w : BitVec 4) : s.attrFault u w = none := by rcases hu with rfl | rfl <;> rfl
  have hoff : s.translationOn u = false := by simp [State.translationOn, hdata, h.1]
  have hits : batHits (s.batArray u) s.msrPR ea = [] := by
    rw [State.batArray, if_neg hdata]
    exact State.batHits_bare h _ _
  have delivered : s.deliver u ea ea 0b0011 = .mapped ea 0b0011 := by
    rw [State.deliver, State.lateFault, hattr, State.dabrMatch_bare h]
    rfl
  simp only [State.translate, hits, hoff, hwimg, delivered]
  rfl

theorem State.bypassD_bare {s : State} (h : s.bareAccess) (wimg : BitVec 4) : s.bypassD wimg = true := by
  obtain ⟨-, -, hoff, -⟩ := h
  simp [State.bypassD, hoff]

theorem oneAccess_iff (ea : Word) (n : Nat) :
    oneAccess ea n ↔ lowBits ea 2 + n ≤ 4 ∨ (n = 8 ∧ lowBits ea 3 = 0) := by
  simp [oneAccess, lowBits, BitVec.extractLsb'_toNat]

theorem physSpan_bare {s : State} (h : s.bareAccess) (pa : Word) (n : Nat) : physSpan s.msrLE pa n = span pa n := by
  obtain ⟨-, hle, -⟩ := h
  rw [hle]
  rfl

theorem span_succ (pa : Word) (n : Nat) :
    span pa (n + 1) = pa :: (List.range n).map fun i => pa + BitVec.ofNat 32 (i + 1) := by
  simp [span, List.range_succ_eq_map]

/-- A load of one part reads the block that answers at its address. -/
theorem State.memRead_bare {s : State} (h : s.bareAccess) {ea : Word} {n : Nat} (hn : oneAccess ea (n + 1)) :
    s.memRead .load ea (n + 1) =
      .ok ((span ea (n + 1)).map fun a => blockByte (s.readBlock (blockOf ea)).1 (blockOffset a))
        ((s.readBlock (blockOf ea)).2.logTenure .read (lowest ea (span ea (n + 1))) (busWim 0b0011 true)
          (span ea (n + 1)).length) := by
  have translated := State.translate_bare h (.inl rfl) ea
  have direct := State.directSegment_of_mapped (by decide) translated
  rw [State.memRead, State.loadOperands, State.withPieces_one ((oneAccess_iff _ _).1 hn) direct]
  simp only [loadPieces, Piece.load, loadParts, translated, endAcc, List.nil_append, physSpan_bare h, span_succ,
    State.loadPhys, State.blockForLoad, State.bypassD_bare h, if_true]

/-- A store of one part writes the block that answers at its address. -/
theorem State.memWrite_bare {s : State} (h : s.bareAccess) {ea : Word} (b : Byte) (bs : List Byte)
    (hn : oneAccess ea (bs.length + 1)) :
    s.memWrite .store ea (b :: bs) =
      .ok [] (s.storeMemory .writeFlush (busWim 0b0011 true) ea ((span ea (bs.length + 1)).zip (b :: bs))) := by
  have translated := State.translate_bare h (.inr rfl) ea
  have direct := State.directSegment_of_mapped (by decide) translated
  have hn' := (oneAccess_iff _ _).1 hn
  have order : s.orderBytes (b :: bs) = b :: bs := by
    rw [State.orderBytes, h.2.1]
    rfl
  have whole : (b :: bs).take (Piece.len (.memory [⟨ea, bs.length + 1⟩])) = b :: bs :=
    List.take_of_length_le (by simp [Piece.len, totalLen])
  rw [State.memWrite, State.storeOperands, List.length_cons, State.withPieces_one hn' direct,
    State.storedOperands_one hn' direct, order]
  simp only [mergePieces, storePieces, whole, Piece.store, storeOperand, translated, endAcc, State.storePart,
    physSpan_bare h, List.length_cons, span_succ, List.zip_cons_cons, State.storePhys, State.bypassD_bare h, if_true]
  rfl

end Sys2Proof.Machine
end

section
/-! SUPPORT. Proofs/WordAccess.lean: the four bytes of a word that `lwz` reads and `stw` writes (O32). -/

namespace Sys2Proof.Machine

/-! ### The bytes of a word -/

theorem wordOf_four (a b c d : Byte) : wordOf [a, b, c, d] = a ++ b ++ c ++ d := by
  have := a.isLt
  have := b.isLt
  have := c.isLt
  have := d.isLt
  apply BitVec.eq_of_toNat_eq
  simp only [wordOf, natOfBytes, List.foldl_cons, List.foldl_nil, toNat_append_eq, BitVec.toNat_ofNat]
  omega

theorem ofNat_div_eq_extractLsb' (v : Word) (j : Nat) : BitVec.ofNat 8 (v.toNat / 256 ^ j) = v.extractLsb' (8 * j) 8 := by
  apply BitVec.eq_of_toNat_eq
  rw [BitVec.extractLsb'_toNat, BitVec.toNat_ofNat, Nat.shiftRight_eq_div_pow, Nat.pow_mul]

theorem lowBytes_four (v : Word) : lowBytes 4 v = (List.range 4).map fun k => v.extractLsb' (24 - 8 * k) 8 := by
  simp only [lowBytes, bytesOfNat, ofNat_div_eq_extractLsb']
  rfl

/-- A word as cells of memory, in big-endian order (R134). -/
def wordCells (ea v : Word) : List (Word × Byte) :=
  (List.range 4).map fun k => (ea + BitVec.ofNat 32 k, v.extractLsb' (24 - 8 * k) 8)

theorem span_zip_lowBytes (ea v : Word) : (span ea 4).zip (lowBytes 4 v) = wordCells ea v := by
  rw [lowBytes_four, span, List.zip_map']
  rfl

theorem wordCells_fst (ea v : Word) : (wordCells ea v).map Prod.fst = span ea 4 := by
  simp [wordCells, span]

theorem mem_wordCells {ea v : Word} {k : Nat} (hk : k < 4) :
    (ea + BitVec.ofNat 32 k, v.extractLsb' (24 - 8 * k) 8) ∈ wordCells ea v :=
  List.mem_map.2 ⟨k, List.mem_range.2 hk, rfl⟩

/-- The bytes of a word written to memory are read there. -/
theorem read_wordCells_mem {m : List Host.Cell} (hm : Memory.wf m = true) {ea : Word} (hn : oneAccess ea 4) (v : Word)
    {k : Nat} (hk : k < 4) :
    Memory.read (patchMemory m (wordCells ea v)) (ea + BitVec.ofNat 32 k).toNat = v.extractLsb' (24 - 8 * k) 8 := by
  have distinct : ((wordCells ea v).map Prod.fst).Nodup := by
    rw [wordCells_fst]
    exact span_nodup (lowBits_inside ((oneAccess_iff _ _).1 hn))
  exact read_patchMemory_mem _ m hm distinct _ (mem_wordCells hk)

theorem read_wordCells_other {m : List Host.Cell} (hm : Memory.wf m = true) {ea : Word} (v : Word) {a : Word}
    (ha : ∀ k < 4, a ≠ ea + BitVec.ofNat 32 k) :
    Memory.read (patchMemory m (wordCells ea v)) a.toNat = Memory.read m a.toNat := by
  refine read_patchMemory_other _ m hm _ fun p hp e => ?_
  obtain ⟨k, hk, rfl⟩ := List.mem_map.1 hp
  exact ha k (List.mem_range.1 hk) (BitVec.eq_of_toNat_eq e)

/-! ### `lwz` and `stw` without translation or cache -/

section
variable {s : State} {ea : Word}

/-- What `lwz` does with the block that answers: its four bytes go to rD. -/
theorem exec_lwz_bare (h : s.bareAccess) (r rA : Reg) (d : BitVec 16) (he : s.eaD rA d = ea) (hn : oneAccess ea 4) :
    ∃ op, exec (.lwz r rA d) s = .next (((s.readBlock (blockOf ea)).2.logBus op).writeGpr r
      (wordOf ((span ea 4).map fun a => blockByte (s.readBlock (blockOf ea)).1 (blockOffset a)))).advance := by
  subst he
  have order (op : BusOp) (l : List Byte) : ((s.readBlock (blockOf (s.eaD rA d))).2.logBus op).orderBytes l = l := by
    have msr : (s.readBlock (blockOf (s.eaD rA d))).2.msr = s.msr := by rw [State.readBlock_state]
    have le : ((s.readBlock (blockOf (s.eaD rA d))).2.logBus op).msrLE = false :=
      (congrArg (beBit · 31) msr).trans h.2.1
    rw [State.orderBytes, le]
    rfl
  have read : exec (.lwz r rA d) s = Acc.finish _ _ _ _ _ _ :=
    congrArg (fun a => Acc.finish a (encode (.lwz r rA d)) .noBase (s.eaD rA d)
      (fun b t => t.writeGpr r (wordOf (t.orderBytes b))) fun t => t) (State.memRead_bare h hn)
  exact ⟨_, read.trans (congrArg (fun l => Host.Outcome.next (State.writeGpr _ r (wordOf l)).advance) (order _ _))⟩

/-- What `stw` does: its four bytes go to the block that answers. -/
theorem exec_stw_bare (h : s.bareAccess) (r rA : Reg) (d : BitVec 16) (he : s.eaD rA d = ea) (hn : oneAccess ea 4) :
    ∃ op, exec (.stw r rA d) s = .next ((s.writeBlock (blockOf ea) (patchMemory s.mem (wordCells ea (s.readGpr r)))
      (wordCells ea (s.readGpr r))).logBus op).advance := by
  subst he
  have written := State.memWrite_bare h (BitVec.ofNat 8 ((s.readGpr r).toNat / 256 ^ 3))
    (bytesOfNat 3 (s.readGpr r).toNat) hn
  rw [← span_zip_lowBytes]
  exact ⟨_, congrArg (fun a => Acc.finish a (encode (.stw r rA d)) .noBase (s.eaD rA d) (fun _ t => t) fun t => t)
    written⟩

end
end Sys2Proof.Machine
end

section
/-! SUPPORT. Proofs/MemoryMapKinds.lean: what `lwz` and `stw` do with each kind of region (O32). -/

namespace Sys2Proof.Machine

section
variable {s : State} {ea : Word} {r rA : Reg} {d : BitVec 16}

/-- A byte of RAM or ROM as a read of its block gives it. -/
theorem State.readBlock_byte {a : Word} (hk : s.kindOf (blockOf ea) = .ram ∨ s.kindOf (blockOf ea) = .rom)
    (ha : blockOf a = blockOf ea) :
    blockByte (s.readBlock (blockOf ea)).1 (blockOffset a) = Memory.read s.mem a.toNat := by
  have ordinary : s.ordinary .load (blockOf ea) := hk.imp id fun h => ⟨rfl, h⟩
  rw [State.readBlock_plain ordinary, blockByte_memoryBlock _ _ _ (blockOffset_lt a), addr_eq_block_offset a, ha]

/-- The word read from RAM or ROM is memory's. -/
theorem State.readBlock_word (hk : s.kindOf (blockOf ea) = .ram ∨ s.kindOf (blockOf ea) = .rom)
    (hn : oneAccess ea 4) :
    wordOf ((span ea 4).map fun a => blockByte (s.readBlock (blockOf ea)).1 (blockOffset a)) =
      s.bareByte ea 0 ++ s.bareByte ea 1 ++ s.bareByte ea 2 ++ s.bareByte ea 3 := by
  have bytes : ((span ea 4).map fun a => blockByte (s.readBlock (blockOf ea)).1 (blockOffset a)) =
      (span ea 4).map fun a => Memory.read s.mem a.toNat :=
    List.map_congr_left fun a ha =>
      State.readBlock_byte hk (span_block (lowBits_inside ((oneAccess_iff _ _).1 hn)) a ha)
  rw [bytes]
  exact wordOf_four _ _ _ _

/-- A load of a word completes whatever answers at its address. -/
theorem State.lwz_kinds (h : s.bareAccess) (he : s.eaD rA d = ea) (hn : oneAccess ea 4) :
    ∃ t, exec (.lwz r rA d) s = .next t ∧ s.gprsBut t [r] ∧
      t = { s with gpr := t.gpr, pc := s.pc + 4, busLog := t.busLog, fresh := t.fresh,
                   tea := s.tea || s.kindOf (blockOf ea) == .hole } ∧
      (s.kindOf (blockOf ea) = .ram ∨ s.kindOf (blockOf ea) = .rom →
        t.readGpr r = s.bareByte ea 0 ++ s.bareByte ea 1 ++ s.bareByte ea 2 ++ s.bareByte ea 3 ∧
          t.fresh = s.fresh) := by
  obtain ⟨op, run⟩ := exec_lwz_bare h r rA d he hn
  refine ⟨_, run, fun q hq => ?_, ?_, fun hk => ⟨?_, ?_⟩⟩
  · rw [State.readGpr_advance, State.readGpr_writeGpr_other _ _ _ _ (by simpa using hq), State.readBlock_state]
    rfl
  · rw [State.readBlock_state]
    rfl
  · rw [State.readGpr_advance, State.readGpr_writeGpr_same, State.readBlock_word hk hn]
  · have ordinary : s.ordinary .load (blockOf ea) := hk.imp id fun h => ⟨rfl, h⟩
    rw [State.readBlock_plain ordinary]
    rfl

/-- A store of a word completes whatever answers at its address. -/
theorem State.stw_kinds (h : s.bareAccess) (he : s.eaD rA d = ea) (hn : oneAccess ea 4) :
    ∃ t, exec (.stw r rA d) s = .next t ∧
      t = { s with mem := t.mem, pc := s.pc + 4, busLog := t.busLog,
                   tea := s.tea || s.kindOf (blockOf ea) == .hole } ∧
      (s.kindOf (blockOf ea) = .ram → s.storedRegs t r ea 4) ∧ (s.kindOf (blockOf ea) ≠ .ram → t.mem = s.mem) ∧
      (s.kindOf (blockOf ea) = .device →
        ∃ op, t.busLog = op :: .deviceWrite (wordCells ea (s.readGpr r)) :: s.busLog) := by
  obtain ⟨op, run⟩ := exec_stw_bare h r rA d he hn
  obtain ⟨-, -, -, -, -, wf⟩ := h
  rw [State.writeBlock_state] at run
  refine ⟨_, run, rfl, fun hk => ⟨?_, fun k hk4 => ?_, fun a ha => ?_⟩, fun hk => ?_, fun hk => ⟨op, ?_⟩⟩
  · have notHole : (s.tea || s.kindOf (blockOf ea) == .hole) = s.tea := by simp [hk, regionKind_beq]
    simp only [State.advance, State.logBus, notHole]
  · have first : r + BitVec.ofNat 5 (k / 4) = r := by rw [Nat.div_eq_of_lt hk4]; exact BitVec.add_zero r
    rw [first, Nat.mod_eq_of_lt hk4]
    simp only [State.bareByte, State.advance, State.logBus, if_pos hk]
    exact read_wordCells_mem wf hn _ hk4
  · simp only [State.advance, State.logBus, if_pos hk]
    exact read_wordCells_other wf _ ha
  · simp only [State.advance, State.logBus, if_neg hk]
  · simp only [State.advance, State.logBus, if_pos hk]

end

/-- A boundary at which no other master is active makes the TEA of the access before it a machine check cause. -/
theorem State.applyInput_tea (s : State) {x : Input} (hx : x.snoops = []) :
    (s.applyInput x).tea = false ∧ (s.applyInput x).latches.mc.tea = (s.latches.mc.tea || x.mc.tea || s.tea) := by
  refine ⟨rfl, ?_⟩
  unfold State.applyInput
  rw [hx, List.foldl_nil]
  dsimp only
  obtain ⟨kept, -⟩ := State.pmStep_pmBoundary (State.tick { s with pins := x.pins } x.ticks) x
    (rtcTransitions s.tb (State.counted { s with pins := x.pins } x.ticks) (rtcExponent s.pm.mmcr0))
  rw [kept]
  rfl

/-- Settles O32: what a read and a write of a block do by the kind of its region, met by the one block that a word
inside an aligned word lies in. -/
theorem memoryMap : Obligations.MemoryMap := by
  unfold Obligations.MemoryMap
  refine ⟨fun s x hx => s.applyInput_tea hx, fun s r rA d h => ?_⟩
  intro ea kind hn
  exact ⟨State.lwz_kinds h rfl hn, State.stw_kinds h rfl hn⟩

end Sys2Proof.Machine
end

section
/-! SUPPORT. Proofs/StorageRules.lean: the rules that the statements about storage share: exceptions, modes, addresses
and lengths, what an access to the memory system leaves. -/

namespace Sys2Proof.Machine

/-! ### Exceptions and modes -/

/-- The entry sequence is the one of R736. -/
theorem State.tookException_takeException (s : State) (off srr0 info : Word) :
    s.tookException (s.takeException off srr0 info) off srr0 info := rfl

/-- The DSI sets DSISR and DAR and enters (R753). -/
theorem State.tookException_takeDsi (s : State) (dsisr dar : Word) : State.tookException
    { s with exc := { s.exc with dsisr := dsisr, dar := dar } } (s.takeDsi dsisr dar) 0x00300 s.pc 0 := rfl

theorem State.tookException_takeDirectError (s : State) (c d : Word) : State.tookException
    { s with lastIa := s.pc, exc := { s.exc with dsisr := c, dar := d } } (s.takeDirectError c d) 0x00300 s.pc 0 := rfl

/-- In supervisor mode a privileged instruction has its meaning (R650). -/
theorem State.supervisorOnly_supervisor {s : State} (h : s.msrPR = false) (k : Result) : s.supervisorOnly k = k := by
  rw [State.supervisorOnly, h]
  rfl

/-- An instruction goes on where its test of the address ends in nothing. -/
theorem exec_ite_passed {i : Instr} {s : State} {b : Bool} {x k : Result} (hb : b = false)
    (run : exec i s = if b = true then x else k) : exec i s = k := by
  rw [run, hb]
  rfl

/-- With DABR[30:31] = 0 no breakpoint is enabled (R791). -/
theorem State.dabrMatch_off {s : State} (h : s.cfg.dabr &&& 3 = 0) (u : Use) (a : Word) : s.dabrMatch u a = false := by
  obtain ⟨h30, h31⟩ := beBit_of_low_zero h
  simp [State.dabrMatch, h30, h31]

/-! ### Addresses and lengths -/

theorem wordAligned_iff (ea : Word) : wordAligned ea = true ↔ ea.toNat % 4 = 0 := by
  rw [wordAligned, beq_iff_eq, ← BitVec.toNat_inj, BitVec.extractLsb'_toNat, Nat.shiftRight_zero]
  rfl

theorem lowBits_two (ea : Word) : lowBits ea 2 = ea.toNat % 4 := by
  simp [lowBits, BitVec.extractLsb'_toNat]

theorem State.eaD_of_ne {s : State} {rA : Reg} (h : rA ≠ 0) (d : BitVec 16) :
    s.eaD rA d = s.readGpr rA + d.signExtend 32 := by
  rw [State.eaD, State.baseOrZero, if_neg h]
  rfl

theorem State.eaX_of_ne {s : State} {rA : Reg} (h : rA ≠ 0) (rB : Reg) : s.eaX rA rB = s.readGpr rA + s.readGpr rB := by
  rw [State.eaX, State.baseOrZero, if_neg h]

theorem bytesOfNat_length (n v : Nat) : (bytesOfNat n v).length = n := by
  induction n with
  | zero => rfl
  | succ n ih => rw [bytesOfNat, List.length_cons, ih]

theorem State.stringCount_eq (s : State) : s.stringCount = s.xer.toNat % 128 := by
  rw [State.stringCount, BitVec.extractLsb'_toNat, Nat.shiftRight_zero]

theorem stringImm_le (nb : BitVec 5) : stringImm nb ≤ 32 := by
  have := nb.isLt
  unfold stringImm
  split <;> omega

/-! ### What an access to the memory system leaves -/

theorem State.readGpr_of_onlyMemorySystem {s t : State} (h : s.onlyMemorySystem t) (q : Reg) :
    t.readGpr q = s.readGpr q := by
  rw [h]
  rfl

theorem State.orderBytes_of_onlyMemorySystem {s t : State} (h : s.onlyMemorySystem t) (bs : List Byte) :
    t.orderBytes bs = s.orderBytes bs := by
  rw [h]
  rfl

end Sys2Proof.Machine
end

section
/-! SUPPORT. Proofs/Snoop.lean: what clears the reservation (O34). -/

namespace Sys2Proof.Machine

/-- The data cache's answer to a snoop changes storage only. -/
theorem State.onlyStorage_snoopData (s : State) (k : BusKind) (b : BitVec 27) : s.onlyStorage (s.snoopData k b) := by
  have pushes : s.onlyStorage (s.snoopPushes k).2 := by
    unfold State.snoopPushes
    split <;> rfl
  have push (l : DLine) : s.onlyStorage (if l.mesi = .modified then
      (if (s.snoopPushes k).1 then (s.snoopPushes k).2.writeBack l else (s.snoopPushes k).2) else s) := by
    split
    · split
      · exact State.onlyStorage_trans pushes (State.storageStep_writeBack _ l).1
      · exact pushes
    · rfl
  unfold State.snoopData
  split
  · rfl
  · rename_i l _
    dsimp only
    split <;> exact State.onlyStorage_trans (push l) rfl

theorem State.resv_snoopData (s : State) (k : BusKind) (b : BitVec 27) : (s.snoopData k b).resv = s.resv := by
  rw [s.onlyStorage_snoopData k b]

theorem State.resv_invalidateI (s : State) (b : BitVec 27) : (s.invalidateI b).resv = s.resv := by
  unfold State.invalidateI
  split <;> rfl

/-- A snoop clears the reservation exactly where it is a global operation of a releasing kind that hits the reserved
block. -/
theorem State.resv_snoopOne (s : State) (x : Snoop) : (s.snoopOne x).resv =
    if (x.gbl && x.kind.releases && s.resvAddr == blockOf x.addr) = true then false else s.resv := by
  have tlb (c : Prop) [Decidable c] (t : State) :
      (if c then t.invalidateTlb (tlbIndex x.addr) else t).resv = t.resv := by
    split <;> rfl
  have icache (c : Prop) [Decidable c] (t : State) :
      (if c then t.invalidateI (blockOf x.addr) else t).resv = t.resv := by
    split
    · exact t.resv_invalidateI _
    · rfl
  have dcache (t : State) : (if x.gbl then t.snoopData x.kind (blockOf x.addr) else t).resv = t.resv := by
    split
    · exact t.resv_snoopData _ _
    · rfl
  unfold State.snoopOne
  dsimp only
  rw [tlb, icache, dcache]
  split <;> rfl

theorem BusKind.releases_iff (k : BusKind) : k.releases = true ↔
    k ∈ [BusKind.writeFlush, .writeFlushAtomic, .rwitm, .rwitmAtomic, .writeKill, .kill] := by
  cases k <;> decide

theorem State.resv_masterWrite (s : State) (x : Snoop) : (s.masterWrite x).resv = s.resv := by
  unfold State.masterWrite
  split <;> rfl

/-- Settles O34: of all that a snoop does, one test on the kind and the block touches the reservation. -/
theorem snoopClearsReservation : Obligations.SnoopClearsReservation := by
  intro s x running awake
  have snooped : (s.latches.checkstop || (s.latches.halted && !s.pins.run)) = false := by
    rcases awake with h | h <;> simp [running, h]
  refine ⟨?_, ?_⟩
  · rw [State.otherMaster, State.resv_masterWrite, snooped, if_neg Bool.false_ne_true, State.resv_snoopOne,
      ← BusKind.releases_iff, ← blockOf]
    simp only [Bool.and_eq_true, beq_iff_eq, and_assoc]
    split <;> simp_all
  · rw [s.snoopStep_otherMaster x]

end Sys2Proof.Machine
end

section
/-! SUPPORT. Proofs/StepFetch.lean: what a step does after a boundary that takes no exception: the fetch, its
exceptions, the instruction (O3, O18). -/

namespace Sys2Proof.Machine

section
variable {s u v : State}

/-! ### The step after its boundary -/

/-- After a boundary that is not the whole step no implicit branch is fetched, and everything else is (R917). -/
theorem step_of_boundary (running : s.latches.checkstop = false) (hb : s.boundary = (u, false)) :
    step s = if u.moved then .refused .implicitBranch else u.fetchAndRun := by
  simp only [step, State.advanceMachine, running, hb, Bool.false_and, Bool.false_eq_true, if_false]

theorem State.fetchAndRun_mapped {pa : Word} {wimg : BitVec 4} (h : u.translate .fetch u.pc = (.mapped pa wimg, v)) :
    u.fetchAndRun = v.fetchWord pa wimg := by
  simp only [State.fetchAndRun, h]

/-- A fetch that fails with one of the causes of an ISI takes it (R755). -/
theorem State.fetchAndRun_fail {f : XFault} (hf : f ∈ [.pageFault, .protection, .noExecute])
    (h : u.translate .fetch u.pc = (.fail f, v)) : u.fetchAndRun = .next (v.takeIsi f.isiInfo) := by
  fin_cases hf <;> simp only [State.fetchAndRun, h]

/-- With translation on, a segment that no IBAT covers and that is no memory segment or may not be executed ends the
fetch (R221, R223). -/
theorem State.translate_fetch_segment (hir : u.msrIR = true) {ea : Word} (hbat : batHits u.mmu.ibat u.msrPR ea = [])
    (hlegal : batIllegal u.mmu.ibat u.msrPR ea = false)
    (hsr : beBit (u.readSr (ea.extractLsb' 28 4)) 0 = true ∨ beBit (u.readSr (ea.extractLsb' 28 4)) 3 = true) :
    u.translate .fetch ea = (.fail .noExecute, u) := by
  have segment : u.translateSegment .fetch ea = (.fail .noExecute, u) := by
    unfold State.translateSegment
    dsimp only
    by_cases direct : beBit (u.readSr (ea.extractLsb' 28 4)) 0 = true
    · rw [if_pos direct, if_pos rfl]
    · rw [if_neg direct, if_pos ⟨rfl, hsr.resolve_left direct⟩]
  have array : u.batArray .fetch = u.mmu.ibat := rfl
  have on : u.translationOn .fetch = true := hir
  simp [State.translate, array, on, hbat, hlegal, segment]

/-! ### The instruction address breakpoint (R790) -/

/-- The compared bits of an address are those above its two lowest. -/
theorem extractLsb'_two_eq {a b : Word} (h : a &&& 0xFFFFFFFC = b &&& 0xFFFFFFFC) :
    a.extractLsb' 2 30 = b.extractLsb' 2 30 := by
  have mask (w : Word) : (w &&& 0xFFFFFFFC).extractLsb' 2 30 = w.extractLsb' 2 30 := by
    rw [BitVec.extractLsb'_and]
    exact BitVec.and_allOnes
  rw [← mask a, h, mask]

/-- What a fetch's translation changes is not compared with IABR. -/
theorem State.iabrMatch_of_onlyStorage (h : u.onlyStorage v) : v.iabrMatch = u.iabrMatch := by
  rw [h]
  rfl

theorem State.iabrMatch_of_bits (on : beBit u.cfg.iabr 30 = true)
    (addr : u.cfg.iabr &&& 0xFFFFFFFC = u.pc &&& 0xFFFFFFFC) (mode : beBit u.cfg.iabr 31 = beBit u.msr 26) :
    u.iabrMatch = true := by
  simp [State.iabrMatch, State.msrIR, on, mode, extractLsb'_two_eq addr]

/-- The bits of SRR1 that R755 gives an ISI. -/
theorem XFault.isiInfo_eq {f : XFault} (hf : f ∈ [.pageFault, .protection, .noExecute]) : f.isiInfo =
    if f = .pageFault then 0x40000000 else if f = .protection then 0x08000000 else 0x10000000 := by
  fin_cases hf <;> rfl

end

/-- Settles O18: the three outcomes of the translation of pc. -/
theorem fetchExceptions : Obligations.FetchExceptions := by
  intro s u v running hb unmoved
  have run : step s = u.fetchAndRun := by rw [step_of_boundary running hb, unmoved]; rfl
  have storage {x : Xlate} (h : u.translate .fetch u.pc = (x, v)) : u.onlyStorage v := by
    simpa only [h] using (u.storageStep_translate .fetch u.pc).1
  refine ⟨fun pa wimg h on addr mode => ⟨storage h, ?_⟩, fun f h hf => ⟨storage h, ?_⟩, fun hir hbat hlegal hsr => ?_⟩
  · have hit : v.iabrMatch = true := by
      rw [State.iabrMatch_of_onlyStorage (storage h)]
      exact State.iabrMatch_of_bits on addr mode
    have pc : v.pc = u.pc := by rw [storage h]
    refine ⟨_, ?_, v.tookException_takeException 0x01300 u.pc 0⟩
    rw [run, State.fetchAndRun_mapped h, State.fetchWord, if_pos hit, pc]
  · have pc : v.pc = u.pc := by rw [storage h]
    refine ⟨_, ?_, v.tookException_takeException 0x00400 u.pc _⟩
    rw [run, State.fetchAndRun_fail hf h, State.takeIsi, pc, XFault.isiInfo_eq hf]
  · refine ⟨_, ?_, u.tookException_takeException 0x00400 u.pc _⟩
    have h := State.translate_fetch_segment hir hbat hlegal hsr
    rw [run, State.fetchAndRun_fail (by simp) h]
    rfl

/-- Settles O3: fetch, decoding, meaning and the end of the instruction, each by its equation. -/
theorem stepRunsDecodedInstruction : Obligations.StepRunsDecodedInstruction := by
  intro s s1 running hb
  refine ⟨fun moved => ?_, fun s2 s3 pa wimg bs i unmoved mapped noBreak fetched noTea decoded => ?_⟩
  · rw [step_of_boundary running hb, moved]
    rfl
  · have word : s2.fetchWord pa wimg = s3.runInstr i := by
      simp only [State.fetchWord, noBreak, fetched, noTea, State.runWord, decoded, Bool.false_eq_true, if_false]
    rw [step_of_boundary running hb, unmoved, if_neg Bool.false_ne_true, State.fetchAndRun_mapped mapped, word]
    unfold State.runInstr finishInstr
    rfl

end Sys2Proof.Machine
end

section
/-! SUPPORT. Proofs/OrderingInstructions.lean: TLB invalidation and the ordering instructions (O22). -/

namespace Sys2Proof.Machine

/-- The entries that stay after an invalidation are those of the other sets (R245). -/
theorem mem_filter_index_ne {l : List TlbEntry} {i : BitVec 6} {e : TlbEntry} :
    e ∈ l.filter (fun e => e.index != i) ↔ e ∈ l ∧ e.index ≠ i := by
  rw [List.mem_filter, bne_iff_ne]

/-- Settles O22: each instruction is one broadcast, `tlbie` one invalidation more. -/
theorem tlbAndOrderingInstructions : Obligations.TlbAndOrderingInstructions := by
  intro s rB op flushed t
  refine ⟨fun h => ?_, fun e => mem_filter_index_ne, fun e => mem_filter_index_ne, fun h => ?_, rfl, rfl, rfl⟩
  · exact State.supervisorOnly_supervisor h _
  · exact State.supervisorOnly_supervisor h _

end Sys2Proof.Machine
end

section
/-! SUPPORT. Proofs/ExternalControl.lean: `eciwx` and `ecowx` (O36). -/

namespace Sys2Proof.Machine

section
variable {s : State} {i : Instr} {u : Use} {ea : Word} {k : Word → State → Result}

/-- An aligned access with EAR[E] = 1 that translates goes to its device. -/
theorem State.external_mapped {t : State} {pa : Word} {wimg : BitVec 4} (ha : ea.toNat % 4 = 0)
    (he : beBit s.cfg.ear 0 = true) (h : s.translate u ea = (.mapped pa wimg, t)) : s.external i u ea k = k pa t := by
  simp [State.external, State.withAddress, (wordAligned_iff ea).2 ha, he, h]

/-- An aligned access with EAR[E] = 0 takes the DSI (R691). -/
theorem State.external_disabled (ha : ea.toNat % 4 = 0) (he : beBit s.cfg.ear 0 = false) :
    s.external i u ea k = .next (s.takeDsi (0x00100000 ||| (if u.isStore then 0x02000000 else 0)) ea) := by
  simp [State.external, (wordAligned_iff ea).2 ha, he]

end

/-- Settles O36: the tests before the access, then the device's word or the one sent. -/
theorem externalControl : Obligations.ExternalControl := by
  intro s r rA rB pa wimg ex rid aligned
  refine ⟨fun he h => ?_, fun he h => ?_, fun he =>
    ⟨⟨_, ?_, s.tookException_takeDsi _ _⟩, ⟨_, ?_, s.tookException_takeDsi _ _⟩⟩⟩
  · refine ⟨_, State.external_mapped aligned he h, fun q hq => ?_, rfl⟩
    exact State.readGpr_writeGpr_other _ r q _ (by simpa using hq)
  · exact State.external_mapped aligned he h
  · exact State.external_disabled aligned he
  · exact State.external_disabled aligned he

end Sys2Proof.Machine
end

section
/-! SUPPORT. Proofs/PlainLoads.lean: the integer loads of plain storage (O23). -/

namespace Sys2Proof.Machine

/-! ### What an access to the memory system leaves -/

section
variable {s t : State}

/-- A load that wrote one register. -/
theorem State.accessed_writeGpr (h : s.onlyMemorySystem t) (hb : s.sameBytes t) (r : Reg) (v : Word) :
    s.accessed (t.writeGpr r v).advance [r] := by
  refine ⟨?_, fun q hq => ?_, fun a => hb a⟩
  · rw [h]
    rfl
  · rw [State.readGpr_advance, State.readGpr_writeGpr_other _ _ _ _ (by simpa using hq),
      State.readGpr_of_onlyMemorySystem h]

/-- A load that wrote its target and its base register. -/
theorem State.accessed_writeGpr_writeGpr (h : s.onlyMemorySystem t) (hb : s.sameBytes t) (r q : Reg) (v e : Word) :
    s.accessed ((t.writeGpr r v).writeGpr q e).advance [r, q] := by
  refine ⟨?_, fun x hx => ?_, fun a => hb a⟩
  · rw [h]
    rfl
  · simp only [List.mem_cons, List.not_mem_nil, or_false, not_or] at hx
    rw [State.readGpr_advance, State.readGpr_writeGpr_other _ _ _ _ hx.2, State.readGpr_writeGpr_other _ _ _ _ hx.1,
      State.readGpr_of_onlyMemorySystem h]

end

/-! ### The load forms -/

section
variable {s : State} {i : Instr} {u : Use} {f : AlignForm} {ea pa : Word} {wimg : BitVec 4} {n : Nat}
  {rD rA : Reg}

/-- A load of plain storage completes with the operand's bytes, and leaves every byte as it was seen. -/
theorem State.loadForm_plain (hu : u ≠ .fetch) (hp : s.plainOperand u ea pa wimg n)
    (put : List Byte → State → State) (rest : State → State) :
    ∃ t, s.loadForm i u f ea n put rest = .next (rest (put (s.operandBytes pa n) t)).advance ∧
      s.onlyMemorySystem t ∧ s.sameBytes t := by
  obtain ⟨sound, plain, one⟩ := hp
  obtain ⟨t, read, only, same, -⟩ := State.memRead_plain hu plain sound ((oneAccess_iff ea n).1 one)
  refine ⟨t, ?_, only, same⟩
  rw [State.loadForm, read]
  exact congrArg (fun b => Host.Outcome.next (rest (put b t)).advance) (State.orderBytes_of_onlyMemorySystem only _)

/-- A load into one register. -/
theorem State.load_done (value : List Byte → Word) (hp : s.plainOperand .load ea pa wimg n)
    (run : exec i s = s.loadForm i .load f ea n (fun b t => t.writeGpr rD (value b)) fun t => t) :
    ∃ t, exec i s = .next t ∧ s.accessed t [rD] ∧ t.readGpr rD = value (s.operandBytes pa n) := by
  obtain ⟨t, loaded, only, same⟩ := State.loadForm_plain (i := i) (f := f) (by decide) hp
    (fun b t => t.writeGpr rD (value b)) fun t => t
  exact ⟨_, run.trans loaded, State.accessed_writeGpr only same _ _, State.readGpr_writeGpr_same _ _ _⟩

/-- A load with update, whose base register is neither 0 nor the target. -/
theorem State.loadUpdate_done (value : List Byte → Word) (h0 : rA ≠ 0) (hD : rA ≠ rD)
    (hp : s.plainOperand .load ea pa wimg n)
    (run : exec i s = s.loadForm i .load f ea n (fun b t => t.writeGpr rD (value b)) fun t => t.updateLoad rD rA ea) :
    ∃ t, exec i s = .next t ∧ s.accessed t [rD, rA] ∧ t.readGpr rD = value (s.operandBytes pa n) ∧
      t.readGpr rA = ea := by
  obtain ⟨t, loaded, only, same⟩ := State.loadForm_plain (i := i) (f := f) (by decide) hp
    (fun b t => t.writeGpr rD (value b)) fun t => t.updateLoad rD rA ea
  have update (t : State) : t.updateLoad rD rA ea = t.writeGpr rA ea := by
    rw [State.updateLoad, if_neg h0, if_neg hD]
  rw [update] at loaded
  refine ⟨_, run.trans loaded, State.accessed_writeGpr_writeGpr only same _ _ _ _, ?_,
    State.readGpr_writeGpr_same _ _ _⟩
  rw [State.readGpr_advance, State.readGpr_writeGpr_other _ _ _ _ hD.symm, State.readGpr_writeGpr_same]

end

/-- The value of a byte-reversing load. -/
def reversedWord (bs : List Byte) : Word := wordOf bs.reverse

/-- Settles O23: every form is the one load of plain storage, with its own size and value. -/
theorem loadsOfPlainStorage : Obligations.LoadsOfPlainStorage := by
  refine ⟨fun s rD rA rB d pa wimg => ?_, fun s rD rA rB d pa wimg h0 hD => ?_⟩
  · intro ea ex done val rev
    exact ⟨fun h => State.load_done wordOf h rfl,
      fun h => ⟨State.load_done wordOf h rfl, State.load_done algebraic h rfl⟩,
      fun h => State.load_done wordOf h rfl, fun h => State.load_done wordOf h rfl,
      fun h => ⟨State.load_done wordOf h rfl, State.load_done algebraic h rfl, State.load_done reversedWord h rfl⟩,
      fun h => ⟨State.load_done wordOf h rfl, State.load_done reversedWord h rfl⟩⟩
  · intro ea ex done val
    have hd : s.eaD rA d = ea := State.eaD_of_ne h0 d
    have hx : s.eaX rA rB = ex := State.eaX_of_ne h0 rB
    clear_value ea ex
    subst hd hx
    exact ⟨fun h => State.loadUpdate_done wordOf h0 hD h rfl,
      fun h => ⟨State.loadUpdate_done wordOf h0 hD h rfl, State.loadUpdate_done algebraic h0 hD h rfl⟩,
      fun h => State.loadUpdate_done wordOf h0 hD h rfl, fun h => State.loadUpdate_done wordOf h0 hD h rfl,
      fun h => ⟨State.loadUpdate_done wordOf h0 hD h rfl, State.loadUpdate_done algebraic h0 hD h rfl⟩,
      fun h => State.loadUpdate_done wordOf h0 hD h rfl⟩

end Sys2Proof.Machine
end

section
/-! SUPPORT. Proofs/PlainStores.lean: the integer stores to plain storage (O24). -/

namespace Sys2Proof.Machine

/-! ### What a store to the memory system leaves -/

section
variable {s t : State} {pa : Word} {bs : List Byte}

/-- A store that wrote no register. -/
theorem State.stored_advance (h : s.onlyMemorySystem t)
    (hb : s.wroteBytes t ((physSpan s.msrLE pa bs.length).zip (s.orderBytes bs))) : s.stored t.advance [] pa bs := by
  refine ⟨?_, fun q _ => State.readGpr_of_onlyMemorySystem h q, hb⟩
  rw [h]
  rfl

/-- A store that wrote its base register. -/
theorem State.stored_writeGpr (h : s.onlyMemorySystem t)
    (hb : s.wroteBytes t ((physSpan s.msrLE pa bs.length).zip (s.orderBytes bs))) (r : Reg) (v : Word) :
    s.stored (t.writeGpr r v).advance [r] pa bs := by
  refine ⟨?_, fun q hq => ?_, hb⟩
  · rw [h]
    rfl
  · rw [State.readGpr_advance, State.readGpr_writeGpr_other _ _ _ _ (by simpa using hq),
      State.readGpr_of_onlyMemorySystem h]

end

/-! ### The store forms -/

section
variable {s : State} {i : Instr} {u : Use} {f : AlignForm} {ea pa : Word} {wimg : BitVec 4} {n : Nat} {rA : Reg}
  {bs : List Byte}

/-- A store to plain storage completes with its bytes stored and every other byte as it was seen. -/
theorem State.storeForm_plain (hu : u.isStore = true) (hn : bs.length = n) (hp : s.plainOperand u ea pa wimg n)
    (rest : State → State) :
    ∃ t, s.storeForm i u f ea bs rest = .next (rest t).advance ∧ s.onlyMemorySystem t ∧
      s.wroteBytes t ((physSpan s.msrLE pa bs.length).zip (s.orderBytes bs)) := by
  subst hn
  obtain ⟨sound, plain, one⟩ := hp
  obtain ⟨t, written, only, wrote, -⟩ := State.memWrite_plain hu plain sound ((oneAccess_iff ea bs.length).1 one)
  exact ⟨t, congrArg (fun r => Acc.finish r (encode i) f ea (fun _ t => t) rest) written, only, wrote⟩

/-- A store that writes no register. -/
theorem State.store_done (hn : bs.length = n) (hp : s.plainOperand .store ea pa wimg n)
    (run : exec i s = s.storeForm i .store f ea bs fun t => t) : ∃ t, exec i s = .next t ∧ s.stored t [] pa bs := by
  obtain ⟨t, done, only, wrote⟩ := State.storeForm_plain (i := i) (f := f) rfl hn hp fun t => t
  exact ⟨_, run.trans done, State.stored_advance only wrote⟩

/-- A store with update, whose base register is not 0. -/
theorem State.storeUpdate_done (h0 : rA ≠ 0) (hn : bs.length = n) (hp : s.plainOperand .store ea pa wimg n)
    (run : exec i s = s.storeForm i .store f ea bs fun t => t.updateBase rA ea) :
    ∃ t, exec i s = .next t ∧ s.stored t [rA] pa bs ∧ t.readGpr rA = ea := by
  obtain ⟨t, done, only, wrote⟩ := State.storeForm_plain (i := i) (f := f) rfl hn hp fun t => t.updateBase rA ea
  rw [State.updateBase, if_neg h0] at done
  exact ⟨_, run.trans done, State.stored_writeGpr only wrote _ _, State.readGpr_writeGpr_same _ _ _⟩

end

/-- Settles O24: every form is the one store to plain storage, with its own bytes. -/
theorem storesToPlainStorage : Obligations.StoresToPlainStorage := by
  have len (n : Nat) (v : Word) : (lowBytes n v).length = n := bytesOfNat_length n v.toNat
  have lenRev (n : Nat) (v : Word) : (lowBytes n v).reverse.length = n := by rw [List.length_reverse, len]
  refine ⟨fun s rS rA rB d pa wimg => ?_, fun s rS rA rB d pa wimg h0 => ?_⟩
  · intro ea ex bytes done
    exact ⟨fun h => State.store_done (len _ _) h rfl, fun h => State.store_done (len _ _) h rfl,
      fun h => State.store_done (len _ _) h rfl, fun h => State.store_done (len _ _) h rfl,
      fun h => ⟨State.store_done (len _ _) h rfl, State.store_done (lenRev _ _) h rfl⟩,
      fun h => ⟨State.store_done (len _ _) h rfl, State.store_done (lenRev _ _) h rfl⟩⟩
  · intro ea ex bytes done
    have hd : s.eaD rA d = ea := State.eaD_of_ne h0 d
    have hx : s.eaX rA rB = ex := State.eaX_of_ne h0 rB
    clear_value ea ex
    subst hd hx
    exact ⟨fun h => State.storeUpdate_done h0 (len _ _) h rfl, fun h => State.storeUpdate_done h0 (len _ _) h rfl,
      fun h => State.storeUpdate_done h0 (len _ _) h rfl, fun h => State.storeUpdate_done h0 (len _ _) h rfl,
      fun h => State.storeUpdate_done h0 (len _ _) h rfl, fun h => State.storeUpdate_done h0 (len _ _) h rfl⟩

end Sys2Proof.Machine
end

section
/-! SUPPORT. Proofs/Reservation.lean: `lwarx` and `stwcx.` (O33). -/

namespace Sys2Proof.Machine

section
variable {s t : State} {u : Use} {ea pa : Word} {wimg : BitVec 4} {n : Nat}

/-! ### The operand in physical memory -/

/-- The bytes of an operand in one part lie in one block, and no address occurs twice. -/
theorem State.plainOperand_span (hp : s.plainOperand u ea pa wimg n) (le : Bool) :
    (∀ a ∈ physSpan le pa n, blockOf a = blockOf pa) ∧ (physSpan le pa n).Nodup := by
  obtain ⟨-, ⟨mapped, -⟩, one⟩ := hp
  have inside : lowBits pa 3 + n ≤ 8 := by
    rw [lowBits_of_offset (State.translate_offset _ _ _ _ _ _ mapped)]
    exact lowBits_inside ((oneAccess_iff ea n).1 one)
  exact ⟨physSpan_block inside, physSpan_nodup inside⟩

/-- The load of `lwarx` gives the bytes seen and leaves them. -/
theorem State.loadReserved_plain (hp : s.plainOperand u ea pa wimg 4) :
    (s.loadReserved wimg pa).1 = (physSpan s.msrLE pa 4).map s.dataByte ∧
      s.onlyMemorySystem (s.loadReserved wimg pa).2 ∧ s.sameBytes (s.loadReserved wimg pa).2 := by
  obtain ⟨block, -⟩ := State.plainOperand_span hp s.msrLE
  obtain ⟨sound, ⟨-, ordinary, cacheable⟩, -⟩ := hp
  have load (b : Bool) := State.loadPhys_spec (if b then s.logBlockOp .lwarxSet wimg (s.mungeWord pa) else s) (u := u)
    wimg .readAtomic (physSpan s.msrLE pa 4) (blockOf pa) block (by cases b <;> exact sound)
    (by cases b <;> exact ordinary) (by cases b <;> exact cacheable)
  have le (b : Bool) : (if b then s.logBlockOp .lwarxSet wimg (s.mungeWord pa) else s).msrLE = s.msrLE := by
    cases b <;> rfl
  unfold State.loadReserved
  dsimp only
  rw [le]
  generalize (!s.bypassD wimg && (findD s.dcache (blockOf pa)).isSome) = b at *
  obtain ⟨bytes, only, same, -⟩ := load b
  refine ⟨?_, ?_, fun a => ?_⟩
  · rw [bytes]
    cases b <;> rfl
  · rw [State.onlyMemorySystem, only]
    cases b <;> rfl
  · rw [same a]
    cases b <;> rfl

/-- A store of one part to plain storage. -/
theorem State.storePart_plain {bs : List Byte} (hu : u.isStore = true)
    (hp : s.plainOperand u ea pa wimg bs.length) (atomic : Bool) :
    s.onlyMemorySystem (s.storePart wimg atomic pa (s.orderBytes bs)) ∧
      s.wroteBytes (s.storePart wimg atomic pa (s.orderBytes bs))
        ((physSpan s.msrLE pa bs.length).zip (s.orderBytes bs)) := by
  obtain ⟨block, distinct⟩ := State.plainOperand_span hp s.msrLE
  obtain ⟨sound, ⟨-, ordinary, cacheable⟩, -⟩ := hp
  have len : (s.orderBytes bs).length = bs.length := by unfold State.orderBytes; split <;> simp
  have addrs : ((physSpan s.msrLE pa bs.length).zip (s.orderBytes bs)).map Prod.fst = physSpan s.msrLE pa bs.length :=
    List.map_fst_zip (by rw [physSpan_length, len])
  obtain ⟨only, wrote, -⟩ := s.storePhys_spec wimg atomic ((physSpan s.msrLE pa bs.length).zip (s.orderBytes bs))
    (blockOf pa) (fun p hmem => block p.1 (by rw [← addrs]; exact List.mem_map_of_mem hmem))
    (by rw [addrs]; exact distinct) sound (State.ordinary_store ordinary hu) cacheable
  rw [State.storePart, len]
  exact ⟨only, wrote⟩

end

/-! ### The condition register -/

/-- A write of one CR field, from a state with the same CR. -/
theorem State.crFieldIs_setCrField {s u : State} (h : u.cr = s.cr) (n : BitVec 3) (lt gt eq so : Bool) :
    s.crFieldIs (u.setCrField n.toNat (crBits lt gt eq so)) n lt gt eq so := by
  obtain ⟨t, run, -, field⟩ := putCompare_spec u n lt gt eq so
  obtain rfl : (u.setCrField n.toNat (crBits lt gt eq so)).advance = t := Host.Outcome.next.inj run
  rw [State.crFieldIs, h] at field
  exact field

/-! ### The two instructions -/

section
variable {s t : State} {r rA rB : Reg} {ea pa : Word} {wimg : BitVec 4}

theorem exec_lwarx_mapped (aligned : (s.eaX rA rB).toNat % 4 = 0)
    (mapped : s.translate .lwarx (s.eaX rA rB) = (.mapped pa wimg, t)) :
    exec (.lwarx r rA rB false) s = .next (State.writeGpr
      { (t.loadReserved wimg pa).2 with resv := true, resvAddr := blockOf pa } r
      (wordOf ((t.loadReserved wimg pa).2.orderBytes (t.loadReserved wimg pa).1))).advance := by
  have run : exec (.lwarx r rA rB false) s = execLwarx r rA rB false s := rfl
  rw [run, execLwarx]
  dsimp only
  rw [if_pos ((wordAligned_iff _).2 aligned), State.withAddress, mapped]
  rfl

/-- What `stwcx.` does to storage: the store with a reservation, nothing without one. -/
def State.conditionalStore (s : State) (wimg : BitVec 4) (pa v : Word) : State :=
  if s.resv then { s.storePart wimg true pa (s.orderBytes (lowBytes 4 v)) with resv := false } else s

theorem exec_stwcxRec_mapped (aligned : (s.eaX rA rB).toNat % 4 = 0)
    (mapped : s.translate .stwcx (s.eaX rA rB) = (.mapped pa wimg, t)) :
    exec (.stwcxRec r rA rB true) s = .next ((t.conditionalStore wimg pa (t.readGpr r)).setCrField 0
      (crBits false false t.resv t.xerSO)).advance := by
  have run : exec (.stwcxRec r rA rB true) s = execStwcxRec r rA rB true s := rfl
  rw [run, execStwcxRec]
  dsimp only
  rw [if_pos ((wordAligned_iff _).2 aligned), State.withAddress, mapped]
  rfl

theorem State.lwarx_done (aligned : (s.eaX rA rB).toNat % 4 = 0)
    (hp : s.plainOperand .lwarx (s.eaX rA rB) pa wimg 4) : ∃ t, exec (.lwarx r rA rB false) s = .next t ∧
      s.accessed { t with resv := s.resv, resvAddr := s.resvAddr } [r] ∧ t.resv = true ∧ t.resvAddr = blockOf pa ∧
      t.readGpr r = BitVec.ofNat 32 (natOfBytes (s.operandBytes pa 4)) := by
  obtain ⟨bytes, only, same⟩ := State.loadReserved_plain hp
  refine ⟨_, exec_lwarx_mapped aligned hp.2.1.1, ?_, rfl, rfl, ?_⟩
  · refine ⟨?_, fun q hq => ?_, fun a => same a⟩
    · rw [only]
      rfl
    · refine (State.readGpr_writeGpr_other _ r q _ (by simpa using hq)).trans ?_
      exact State.readGpr_of_onlyMemorySystem only q
  · rw [State.readGpr_advance, State.readGpr_writeGpr_same, State.orderBytes_of_onlyMemorySystem only, bytes]
    rfl

theorem State.stwcx_done (aligned : (s.eaX rA rB).toNat % 4 = 0)
    (hp : s.plainOperand .stwcx (s.eaX rA rB) pa wimg 4) : ∃ t, exec (.stwcxRec r rA rB true) s = .next t ∧
      t.resv = false ∧ s.crFieldIs t 0 false false s.resv (beBit s.xer 0) ∧
      (if s.resv = true then
          s.stored { t with resv := s.resv, cr := s.cr } [] pa (bytesOfNat 4 (s.readGpr r).toNat)
        else { t with cr := s.cr } = { s with pc := s.pc + 4 }) := by
  obtain ⟨only, wrote⟩ := State.storePart_plain (bs := lowBytes 4 (s.readGpr r)) rfl
    (by rw [lowBytes, bytesOfNat_length]; exact hp) true
  refine ⟨_, exec_stwcxRec_mapped aligned hp.2.1.1, ?_⟩
  by_cases reserved : s.resv = true
  · rw [State.conditionalStore, if_pos reserved, if_pos reserved]
    refine ⟨rfl, State.crFieldIs_setCrField ?_ 0 _ _ _ _, ?_, fun q _ => ?_, wrote⟩
    · rw [only]
    · rw [only]
      rfl
    · exact State.readGpr_of_onlyMemorySystem only q
  · rw [State.conditionalStore, if_neg reserved, if_neg reserved]
    exact ⟨by simpa using reserved, State.crFieldIs_setCrField rfl 0 _ _ _ _, rfl⟩

end

/-- Settles O33: the load with its reservation, and the two outcomes of the conditional store. -/
theorem reservationPair : Obligations.ReservationPair := by
  intro s r rA rB pa wimg ex aligned
  exact ⟨fun h => State.lwarx_done aligned h, fun h => State.stwcx_done aligned h⟩

end Sys2Proof.Machine
end

section
/-! SUPPORT. Proofs/Alignment.lean: who takes the alignment exception (O29). -/

namespace Sys2Proof.Machine

section
variable {s : State} {i : Instr} {u : Use} {f : AlignForm} {ea : Word} {n : Nat}

/-! ### The exception -/

/-- The alignment exception sets DSISR and DAR, and DSISR's undefined bits are one free value (R761, R762). -/
theorem State.tookException_takeAlignment (run : exec i s = .next (s.takeAlignment (encode i) f ea)) :
    ∃ t free k, exec i s = .next t ∧ State.tookException
      { s with exc := { s.exc with dsisr := alignDsisr (encode i) f free, dar := ea }, fresh := k } t 0x00600 s.pc 0 :=
  ⟨_, s.drawWord.1, s.drawWord.2.fresh, run, State.tookException_takeException _ _ _ _⟩

/-! ### Tests on the address -/

theorem misaligned_or_little (h : ea.toNat % 4 ≠ 0 ∨ s.msrLE = true) : (s.msrLE || !wordAligned ea) = true := by
  rcases h with h | h
  · have : wordAligned ea = false := Bool.eq_false_iff.2 (mt (wordAligned_iff ea).1 h)
    simp [this]
  · simp [h]

theorem crosses_or_little (h : stringCrosses ea n = true ∨ s.msrLE = true) :
    (s.msrLE || stringCrosses ea n) = true := by
  rcases h with h | h <;> simp [h]

/-- The instructions that end in the alignment exception where a test holds. -/
theorem exec_ite_alignment {b : Bool} {k : Result} (hb : b = true)
    (run : exec i s = if b = true then .next (s.takeAlignment (encode i) f ea) else k) :
    exec i s = .next (s.takeAlignment (encode i) f ea) := by
  rw [run, if_pos hb]

/-- The instructions that go on at a multiple of four only. -/
theorem exec_aligned_else {k : Result} (h : ea.toNat % 4 ≠ 0)
    (run : exec i s = if wordAligned ea = true then k else .next (s.takeAlignment (encode i) f ea)) :
    exec i s = .next (s.takeAlignment (encode i) f ea) := by
  rw [run, if_neg (mt (wordAligned_iff ea).1 h)]

theorem State.external_misaligned (h : ea.toNat % 4 ≠ 0) (u : Use) (k : Word → State → Result) :
    s.external i u ea k = .next (s.takeAlignment (encode i) .noBase ea) := by
  have : wordAligned ea = false := Bool.eq_false_iff.2 (mt (wordAligned_iff ea).1 h)
  simp [State.external, this]

/-! ### Floating-point operands in a direct-store segment (R253) -/

theorem mergePieces_direct (x : Word) (ps : List Part) (t : List Piece) :
    (mergePieces (.direct x ps :: t)).any Piece.isDirect = true := by
  unfold mergePieces
  split
  · split <;> rfl
  · rfl
  · rfl

/-- An operand whose address is a direct-store access starts with a piece for the unit. -/
theorem State.pieces_direct {p : Part} (h : (s.directSegment p.ea).isSome = true) :
    ∃ x ps t, s.pieces p = .direct x ps :: t := by
  obtain ⟨x, hx⟩ := Option.isSome_iff_exists.1 h
  unfold State.pieces splitParts
  split
  · rename_i none
    split at none <;> cases none
  · rename_i a one
    have first : a.ea = p.ea := by
      split at one <;> cases one
      rfl
    rw [first, hx]
    exact ⟨_, _, _, rfl⟩
  · rename_i a b t two
    have first : a.ea = p.ea := by
      split at two <;> cases two
      rfl
    rw [first, hx]
    cases hy : s.directSegment b.ea with
    | none =>
      dsimp only
      split <;> exact ⟨_, _, _, rfl⟩
    | some y =>
      dsimp only
      split <;> exact ⟨_, _, _, rfl⟩

theorem State.withPieces_fp (hu : u = .fpLoad ∨ u = .fpStore) (h : (s.directSegment ea).isSome = true) (n : Nat)
    (k : List Piece → Acc) : s.withPieces u [⟨ea, n⟩] k = .align s := by
  obtain ⟨x, ps, t, hp⟩ := State.pieces_direct (p := ⟨ea, n⟩) h
  have direct : (mergePieces ([⟨ea, n⟩].flatMap s.pieces)).any Piece.isDirect = true := by
    rw [List.flatMap_cons, List.flatMap_nil, List.append_nil, hp]
    exact mergePieces_direct x ps t
  rw [State.withPieces, if_pos direct, if_pos hu]

theorem State.fpLoadForm_traps (hfp : s.msrFP = true) (h : ea.toNat % 4 ≠ 0 ∨ (s.directSegment ea).isSome = true)
    (put : List Byte → State → State) (rest : State → State) :
    s.fpLoadForm i f ea n put rest = .next (s.takeAlignment (encode i) f ea) := by
  rw [State.fpLoadForm, State.needFp, if_pos hfp]
  split
  · rename_i aligned
    have direct := h.resolve_left (not_not.2 ((wordAligned_iff ea).1 aligned))
    rw [State.loadForm, State.memRead, State.loadOperands, State.withPieces_fp (.inl rfl) direct]
    rfl
  · rfl

theorem State.fpStoreForm_traps (hfp : s.msrFP = true) (h : ea.toNat % 4 ≠ 0 ∨ (s.directSegment ea).isSome = true)
    (bs : List Byte) (rest : State → State) :
    s.fpStoreForm i f ea bs rest = .next (s.takeAlignment (encode i) f ea) := by
  rw [State.fpStoreForm, State.needFp, if_pos hfp]
  split
  · rename_i aligned
    have direct := h.resolve_left (not_not.2 ((wordAligned_iff ea).1 aligned))
    rw [State.storeForm, State.memWrite, State.storeOperands, State.withPieces_fp (.inr rfl) direct]
    rfl
  · rfl

/-! ### `dcbz` (R150 f) -/

/-- A store to a page that sets the changed bit leaves an entry for the page with that bit at the head of its TLB. -/
theorem State.markChanged_head {e : TlbEntry} {p : Option PteHit} {t : State} (hu : u ≠ .fetch)
    (h : s.markChanged u ea e p = (true, t)) : ∃ l, t.dtlb = { e with changed := true } :: l := by
  have head (v : State) : ∃ l, (v.setTlb u (tlbUse (v.tlb u) { e with changed := true })).dtlb =
      { e with changed := true } :: l := by
    rw [State.setTlb, if_neg hu]
    exact ⟨_, rfl⟩
  unfold State.markChanged at h
  dsimp only at h
  split at h
  · obtain ⟨-, rfl⟩ := Prod.mk.inj h
    exact head _
  · split at h
    · obtain ⟨-, rfl⟩ := Prod.mk.inj h
      exact head _
    · cases (Prod.mk.inj h).1

/-- The entry of a translation is the one the TLB already had, or the TLB had none. -/
theorem State.findEntry_entry {vsid : BitVec 24} {e : TlbEntry} {p : Option PteHit} {t : State}
    (h : s.findEntry u vsid ea = (some (e, p), t)) :
    (tlbFind (s.tlb u) vsid ea = some e ∨ tlbFind (s.tlb u) vsid ea = none) ∧
      e.index = tlbIndex ea ∧ e.tag = tlbTag ea ∧ e.vsid = vsid := by
  unfold State.findEntry at h
  split at h
  · rename_i e' hit
    obtain ⟨h1, -⟩ := Prod.mk.inj h
    obtain rfl : e' = e := by cases h1; rfl
    have found := List.find?_some hit
    simp only [Bool.and_eq_true, beq_iff_eq] at found
    exact ⟨.inl hit, found.1.1, found.1.2, found.2⟩
  · rename_i miss
    dsimp only at h
    split at h
    · cases (Prod.mk.inj h).1
    · obtain ⟨h1, -⟩ := Prod.mk.inj h
      cases h1
      exact ⟨.inr miss, rfl, rfl, rfl⟩

/-- A translation that sets the changed bit changes the state. -/
theorem State.markChanged_changes {vsid : BitVec 24} {e : TlbEntry} {p : Option PteHit} {t : State} (hu : u ≠ .fetch)
    (found : s.findEntry u vsid ea = (some (e, p), t)) (clean : e.changed = false) :
    t.markChanged u ea e p ≠ (true, s) := by
  intro h
  obtain ⟨l, head⟩ := State.markChanged_head hu h
  obtain ⟨before, index, tag, segment⟩ := State.findEntry_entry found
  have now : tlbFind (s.tlb u) vsid ea = some { e with changed := true } := by
    rw [State.tlb, if_neg hu, head, tlbFind]
    simp [index, tag, segment]
  rcases before with hit | miss
  · have same := congrArg TlbEntry.changed (Option.some.inj (hit.symm.trans now))
    rw [clean] at same
    cases same
  · rw [miss] at now
    cases now

/-- Where `dcbi` would store with nothing recorded, `dcbz` finds the same storage, and ends in the alignment exception. -/
theorem State.translatePage_dcbz {sr pa : Word} {w : BitVec 4}
    (h : s.translatePage .cacheStore sr ea = (.mapped pa w, s)) (hw : s.attrFault .dcbz w = some .alignment) :
    s.translatePage .dcbz sr ea = (.fail .alignment, s) := by
  have entry : s.findEntry .dcbz (srVsid sr) ea = s.findEntry .cacheStore (srVsid sr) ea := rfl
  have late (e : BitVec 4) : s.lateFault .cacheStore ea e = none := rfl
  have stores : Use.dcbz.isStore = Use.cacheStore.isStore := rfl
  unfold State.translatePage at h ⊢
  rw [entry, stores]
  rcases hf : s.findEntry .cacheStore (srVsid sr) ea with ⟨_ | ⟨e, p⟩, t⟩
  · rw [hf] at h
    cases (Prod.mk.inj h).1
  · rw [hf] at h
    dsimp only at h ⊢
    split at h
    · cases (Prod.mk.inj h).1
    · rename_i allowed
      rw [if_neg (fun h => nomatch h.1), late] at h
      dsimp only at h
      rw [if_neg allowed, if_neg (fun h => nomatch h.1)]
      cases hc : e.changed with
      | false =>
        rw [if_pos (by simp [hc, Use.isStore])] at h
        obtain ⟨h1, h2⟩ := Prod.mk.inj h
        have done : (t.markChanged .cacheStore ea e p).1 = true := by
          by_contra no
          rw [if_neg no] at h1
          cases h1
        exact absurd (Prod.ext done h2) (State.markChanged_changes (by decide) hf hc)
      | true =>
        rw [if_neg (by simp [hc])] at h
        obtain ⟨h1, rfl⟩ := Prod.mk.inj h
        obtain ⟨-, rfl⟩ := Xlate.mapped.inj h1
        rw [State.lateFault, hw]

/-- The same for the whole translation. -/
theorem State.translate_dcbz {pa : Word} {w : BitVec 4} (h : s.translate .cacheStore ea = (.mapped pa w, s))
    (hw : s.attrFault .dcbz w = some .alignment) : s.translate .dcbz ea = (.fail .alignment, s) := by
  have delivered {q : Word} {x : BitVec 4} (hd : s.deliver .cacheStore ea q x = .mapped pa w) :
      s.deliver .dcbz ea q x = .fail .alignment := by
    obtain ⟨-, rfl⟩ : q = pa ∧ x = w := Xlate.mapped.inj hd
    rw [State.deliver, State.lateFault, hw]
  have array : s.batArray .dcbz = s.batArray .cacheStore := rfl
  have on : s.translationOn .dcbz = s.translationOn .cacheStore := rfl
  have stores : Use.dcbz.isStore = Use.cacheStore.isStore := rfl
  unfold State.translate at h ⊢
  rw [array, on]
  dsimp only at h ⊢
  split at h
  · cases (Prod.mk.inj h).1
  rename_i single
  rw [if_neg single]
  split at h
  · rename_i real
    rw [if_pos real]
    exact congrArg (·, s) (delivered (Prod.mk.inj h).1)
  rename_i mapped
  rw [if_neg mapped]
  split at h
  · cases (Prod.mk.inj h).1
  rename_i legal
  rw [if_neg legal]
  split at h
  · rename_i b _ hits
    split at h
    · cases (Prod.mk.inj h).1
    rename_i allowed
    rw [stores, if_neg allowed, if_neg (fun h => nomatch h.1)]
    rw [if_neg (fun h => nomatch h.1)] at h
    exact congrArg (·, s) (delivered (Prod.mk.inj h).1)
  · unfold State.translateSegment at h ⊢
    dsimp only at h ⊢
    split at h
    · cases (Prod.mk.inj h).1
    rename_i memory
    rw [if_neg memory, if_neg (fun h => nomatch h.1)]
    rw [if_neg (fun h => nomatch h.1)] at h
    exact State.translatePage_dcbz h hw

/-- Storage that is written through, caching-inhibited, or for which the data cache cannot be used (R150 f). -/
theorem State.attrFault_dcbz {w : BitVec 4}
    (h : w.getMsbD 0 = true ∨ w.getMsbD 1 = true ∨ s.dcacheOn = false ∨ s.dcacheLocked = true) :
    s.attrFault .dcbz w = some .alignment := by
  rw [State.attrFault, if_pos]
  rcases h with h | h | h | h <;> simp [attrW, attrI, h]

theorem exec_dcbz_traps {rA rB : Reg} {pa : Word} {w : BitVec 4}
    (mapped : s.translate .cacheStore (s.eaX rA rB) = (.mapped pa w, s))
    (h : w.getMsbD 0 = true ∨ w.getMsbD 1 = true ∨ s.dcacheOn = false ∨ s.dcacheLocked = true) :
    exec (.dcbz rA rB) s = .next (s.takeAlignment (encode (.dcbz rA rB)) .noFields (s.eaX rA rB)) := by
  have run : exec (.dcbz rA rB) s = execDcbz rA rB s := rfl
  rw [run, execDcbz, State.onBlock, State.withAddress, State.translate_dcbz mapped (State.attrFault_dcbz h)]
  rfl

end

/-- Settles O29: each form tests its address first, but for `dcbz`, whose storage is tested after its translation. -/
theorem misalignedAccessesTrap : Obligations.MisalignedAccessesTrap := by
  intro s r rA rB d nb rc base ea ex n m traps
  have count : s.stringCount = m := s.stringCount_eq
  refine ⟨fun h => ⟨?_, ?_⟩, fun h => ⟨?_, ?_⟩, fun h => ⟨?_, ?_⟩, fun h i hi => ?_,
    fun hfp h => ⟨fun i hi => ?_, fun i hi => ?_⟩,
    fun hfp h => ⟨fun i hi => ?_, fun i hi => ?_⟩, fun pa wimg mapped h => ?_⟩
  · exact State.tookException_takeAlignment (exec_ite_alignment (misaligned_or_little h) rfl)
  · exact State.tookException_takeAlignment (exec_ite_alignment (misaligned_or_little h) rfl)
  · exact State.tookException_takeAlignment (exec_ite_alignment (crosses_or_little h) rfl)
  · exact State.tookException_takeAlignment (exec_ite_alignment (crosses_or_little h) rfl)
  · rw [← count] at h
    exact State.tookException_takeAlignment (exec_ite_alignment (crosses_or_little h) rfl)
  · rw [← count] at h
    exact State.tookException_takeAlignment (exec_ite_alignment (crosses_or_little h) rfl)
  · fin_cases hi
    · exact State.tookException_takeAlignment (exec_aligned_else h rfl)
    · exact State.tookException_takeAlignment (exec_aligned_else h rfl)
    · exact State.tookException_takeAlignment (State.external_misaligned h _ _)
    · exact State.tookException_takeAlignment (State.external_misaligned h _ _)
  · fin_cases hi
    · exact State.tookException_takeAlignment (State.fpLoadForm_traps hfp h _ _)
    · exact State.tookException_takeAlignment (State.fpLoadForm_traps hfp h _ _)
    · exact State.tookException_takeAlignment (State.fpStoreForm_traps hfp h _ _)
    · exact State.tookException_takeAlignment (State.fpStoreForm_traps hfp h _ _)
  · fin_cases hi
    · exact State.tookException_takeAlignment (State.fpLoadForm_traps hfp h _ _)
    · exact State.tookException_takeAlignment (State.fpLoadForm_traps hfp h _ _)
    · exact State.tookException_takeAlignment (State.fpStoreForm_traps hfp h _ _)
    · exact State.tookException_takeAlignment (State.fpStoreForm_traps hfp h _ _)
  · fin_cases hi
    · exact State.tookException_takeAlignment (State.fpLoadForm_traps hfp h _ _)
    · exact State.tookException_takeAlignment (State.fpLoadForm_traps hfp h _ _)
    · exact State.tookException_takeAlignment (State.fpStoreForm_traps hfp h _ _)
    · exact State.tookException_takeAlignment (State.fpStoreForm_traps hfp h _ _)
    · exact State.tookException_takeAlignment (State.fpStoreForm_traps hfp h _ _)
  · fin_cases hi
    · exact State.tookException_takeAlignment (State.fpLoadForm_traps hfp h _ _)
    · exact State.tookException_takeAlignment (State.fpLoadForm_traps hfp h _ _)
    · exact State.tookException_takeAlignment (State.fpStoreForm_traps hfp h _ _)
    · exact State.tookException_takeAlignment (State.fpStoreForm_traps hfp h _ _)
  · exact State.tookException_takeAlignment (exec_dcbz_traps mapped h)

end Sys2Proof.Machine
end

section
/-! SUPPORT. Proofs/DirectStore.lean: accesses to direct-store segments (O31). -/

namespace Sys2Proof.Machine

section
variable {s : State} {i : Instr} {u : Use} {f : AlignForm} {ea sr : Word}

/-! ### What is a direct-store access (R250) -/

theorem State.directSegment_eq_some : s.directSegment ea = some sr ↔ s.msrDR = true ∧
    batIllegal s.mmu.dbat s.msrPR ea = false ∧ batHits s.mmu.dbat s.msrPR ea = [] ∧
    s.readSr (ea.extractLsb' 28 4) = sr ∧ beBit sr 0 = true := by
  unfold State.directSegment State.segmentOf
  rw [Option.filter_eq_some_iff]
  constructor
  · rintro ⟨h, hT⟩
    split at h
    · rename_i c
      simp only [Bool.and_eq_true, Bool.not_eq_true', List.isEmpty_iff] at c
      exact ⟨c.1.1, c.1.2, c.2, Option.some.inj h, hT⟩
    · cases h
  · rintro ⟨hdr, hlegal, hbat, hsr, hT⟩
    simp [hdr, hlegal, hbat, hsr, hT]

/-- A translation for data answers the segment register and changes nothing. -/
theorem State.translate_direct (hu : u ≠ .fetch) (h : s.directSegment ea = some sr) :
    s.translate u ea = (.directStore sr, s) := by
  obtain ⟨hdr, hlegal, hbat, hsr, hT⟩ := State.directSegment_eq_some.1 h
  simp [State.translate, State.batArray, hu, hbat, State.translationOn, hdr, hlegal, State.translateSegment, hsr, hT]

/-- The DSI of an access from a page into a direct-store segment has one cause bit (R155; 92 D27). -/
theorem mixedDsi_oneCause (u : Use) (a : Word) (done : List Byte) (s : State) : ∃ c t, s.onlyStorage t ∧
    c ∈ [(0x80000000 : Word), 0x40000000, 0x08000000, 0x04000000] ∧
    mixedDsi u a done s = .dsi done (c ||| (if u.isStore then 0x02000000 else 0)) a t := by
  refine ⟨_, _, ?_, ?_, rfl⟩
  · exact (State.storageStep_trans s.storageStep_drawBit (State.storageStep_drawBit _)).1
  · generalize s.drawBit.1 = a
    generalize s.drawBit.2.drawBit.1 = b
    revert a b
    decide

/-! ### The transfers of an aligned word (R221, R255) -/

/-- The operation on the bus for a word at `ea`, with the two packets of R221. -/
def State.directOp (s : State) (sr ea : Word) (code : BitVec 8) (bytes : List Byte) : BusOp :=
  .directStore (0#2 ++ BitVec.ofBool (s.segmentKey sr) ++ sr.extractLsb' 4 25 ++ s.cfg.pir.extractLsb' 0 4) code
    (sr.extractLsb' 0 4 ++ ea.extractLsb' 0 28) 4 bytes

theorem lowBits_of_aligned (ha : ea.toNat % 4 = 0) : lowBits ea 2 = 0 ∧ lowBits ea 3 + 4 ≤ 8 := by
  simp only [lowBits, BitVec.extractLsb'_toNat, Nat.shiftRight_zero]
  omega

/-- An aligned word of a direct-store segment is one piece, for its unit. -/
theorem State.pieces_word (h : s.directSegment ea = some sr) (ha : ea.toNat % 4 = 0) :
    s.pieces ⟨ea, 4⟩ = [.direct sr [⟨ea, 4⟩]] := by
  have inside : lowBits ea 2 + 4 ≤ 4 := by have := (lowBits_of_aligned ha).1; omega
  rw [State.pieces, splitParts_inside (.inl inside)]
  simp only [h]

theorem State.withPieces_word (hle : s.msrLE = false) (h : s.directSegment ea = some sr) (ha : ea.toNat % 4 = 0)
    (hu : u = .load ∨ u = .store) (k : List Piece → Acc) :
    s.withPieces u [⟨ea, 4⟩] k = k [.direct sr [⟨ea, 4⟩]] := by
  have pieces : mergePieces ([⟨ea, 4⟩].flatMap s.pieces) = [.direct sr [⟨ea, 4⟩]] := by
    rw [List.flatMap_cons, List.flatMap_nil, List.append_nil, State.pieces_word h ha]
    rfl
  have noFp : ¬(u = .fpLoad ∨ u = .fpStore) := by rcases hu with rfl | rfl <;> decide
  have direct : [Piece.direct sr [⟨ea, 4⟩]].any Piece.isDirect = true := rfl
  rw [State.withPieces, pieces, if_pos direct, if_neg noFp, hle]
  rfl

theorem directBeats_word (ha : ea.toNat % 4 = 0) : directBeats ea 4 = [⟨ea, 4⟩] := by
  rw [directBeats, if_pos (lowBits_of_aligned ha).2]

theorem directAccess_word (hd : s.cfg.dabr &&& 3 = 0) (ha : ea.toNat % 4 = 0) (u : Use) (data : Option (List Byte)) :
    directAccess u sr [⟨ea, 4⟩] data s = match data with
      | none => directReply u (directLoads sr [⟨ea, 4⟩] (s.logDirect sr ⟨ea, 4⟩ 0x40 4 [])).1 ea
          (directLoads sr [⟨ea, 4⟩] (s.logDirect sr ⟨ea, 4⟩ 0x40 4 [])).2
      | some bs => directReply u [] ea (directStores sr [⟨ea, 4⟩] bs s) := by
  unfold directAccess
  simp only [List.flatMap_cons, List.flatMap_nil, List.append_nil, directBeats_word ha, List.find?_cons,
    State.dabrMatch_off hd, List.find?_nil]
  cases data <;> rfl

theorem loadPieces_one (u : Use) (p : Piece) (s : State) : loadPieces u [p] none [] s = p.load u s := by
  unfold loadPieces
  cases p.load u s <;> rfl

theorem storePieces_reply {p : Piece} {bs : List Byte} {t : State}
    (h : p.store u (bs.take p.len) s = directReply u [] ea t) :
    storePieces u [p] none bs s = directReply u [] ea t := by
  rw [storePieces, h, directReply]
  cases t.drawBit.1 <;> rfl

/-- A load of a word sends the load start and the load last; its data are free (R256). -/
theorem State.memRead_direct (hle : s.msrLE = false) (hd : s.cfg.dabr &&& 3 = 0) (h : s.directSegment ea = some sr)
    (ha : ea.toNat % 4 = 0) :
    s.memRead .load ea 4 = directReply .load (bytesOfNat 4 s.drawWord.1.toNat) ea
      { s with busLog := s.directOp sr ea 0x70 [] :: s.directOp sr ea 0x40 [] :: s.busLog, fresh := s.fresh + 1 } := by
  have access : directAccess .load sr [⟨ea, 4⟩] none s = directReply .load (bytesOfNat 4 s.drawWord.1.toNat) ea
      { s with busLog := s.directOp sr ea 0x70 [] :: s.directOp sr ea 0x40 [] :: s.busLog, fresh := s.fresh + 1 } :=
    directAccess_word hd ha .load none
  rw [State.memRead, State.loadOperands, State.withPieces_word hle h ha (.inl rfl), loadPieces_one, Piece.load, access]

/-- A store of a word sends the store last with the word. -/
theorem State.memWrite_direct (hle : s.msrLE = false) (hd : s.cfg.dabr &&& 3 = 0) (h : s.directSegment ea = some sr)
    (ha : ea.toNat % 4 = 0) (v : Word) :
    s.memWrite .store ea (lowBytes 4 v) =
      directReply .store [] ea { s with busLog := s.directOp sr ea 0x30 (lowBytes 4 v) :: s.busLog } := by
  have access : directAccess .store sr [⟨ea, 4⟩] (some (lowBytes 4 v)) s =
      directReply .store [] ea { s with busLog := s.directOp sr ea 0x30 (lowBytes 4 v) :: s.busLog } :=
    directAccess_word hd ha .store (some (lowBytes 4 v))
  have order : s.orderBytes (lowBytes 4 v) = lowBytes 4 v := by
    rw [State.orderBytes, hle]
    rfl
  have len : (lowBytes 4 v).length = 4 := rfl
  have performed : s.storedOperands .store [⟨ea, 4⟩] = ([.direct sr [⟨ea, 4⟩]], s) := by
    simp only [State.storedOperands, State.storedPieces, State.pieces_word h ha, List.append_nil]
  have merged : mergePieces [.direct sr [⟨ea, 4⟩]] = [.direct sr [⟨ea, 4⟩]] := rfl
  rw [State.memWrite, order, len, State.storeOperands, State.withPieces_word hle h ha (.inr rfl), performed, merged]
  exact storePieces_reply access

/-! ### The load and store forms -/

/-- The state of a load of a word before its reply has acted: the target holds `v`. -/
def State.directLoaded (s : State) (sr ea : Word) (r : Reg) (v : Word) : State :=
  { s with
    gpr := s.gpr.set r.toNat v r.isLt
    busLog := s.directOp sr ea 0x70 [] :: s.directOp sr ea 0x40 [] :: s.busLog
    fresh := s.fresh + 2 }

/-- The state of a store of a word once its reply has come. -/
def State.directSent (s : State) (sr ea v : Word) : State :=
  { s with busLog := s.directOp sr ea 0x30 (lowBytes 4 v) :: s.busLog, fresh := s.fresh + 1 }

/-- The word a unit answers with next, and the error bit of its reply: free values. -/
def State.directWord (s : State) : Word := wordOf (bytesOfNat 4 s.drawWord.1.toNat)

/-- A load of a word writes its target also where the unit flags an error, and nothing else then (R256, R753). -/
theorem State.loadForm_direct (hle : s.msrLE = false) (hd : s.cfg.dabr &&& 3 = 0) (h : s.directSegment ea = some sr)
    (ha : ea.toNat % 4 = 0) (r : Reg) (rest : State → State) :
    s.loadForm i .load f ea 4 (fun b t => t.writeGpr r (wordOf b)) rest =
      if s.drawWord.2.drawBit.1 then .next ((s.directLoaded sr ea r s.directWord).takeDirectError 0x80000000 ea)
      else .next (rest (s.directLoaded sr ea r s.directWord)).advance := by
  have order (bs : List Byte) (l : List BusOp) (k : Nat) :
      State.orderBytes { s with busLog := l, fresh := k } bs = bs := by
    have : State.msrLE { s with busLog := l, fresh := k } = false := hle
    rw [State.orderBytes, this]
    rfl
  rw [State.loadForm, State.memRead_direct hle hd h ha, directReply]
  have reply (l : List BusOp) :
      (State.drawBit { s with busLog := l, fresh := s.fresh + 1 }).1 = s.drawWord.2.drawBit.1 :=
    rfl
  rw [reply]
  split
  · exact congrArg (fun b => Host.Outcome.next (State.takeDirectError (State.writeGpr _ r (wordOf b)) _ ea))
      (order _ _ _)
  · exact congrArg (fun b => Host.Outcome.next (rest (State.writeGpr _ r (wordOf b))).advance) (order _ _ _)

theorem State.storeForm_direct (hle : s.msrLE = false) (hd : s.cfg.dabr &&& 3 = 0) (h : s.directSegment ea = some sr)
    (ha : ea.toNat % 4 = 0) (v : Word) (rest : State → State) :
    s.storeForm i .store f ea (lowBytes 4 v) rest =
      if s.drawBit.1 then .next ((s.directSent sr ea v).takeDirectError 0x82000000 ea)
      else .next (rest (s.directSent sr ea v)).advance := by
  have reply (l : List BusOp) : (State.drawBit { s with busLog := l }).1 = s.drawBit.1 := rfl
  rw [State.storeForm, State.memWrite_direct hle hd h ha, directReply, reply]
  split <;> rfl

section
variable {r : Reg} (rest : State → State) (hle : s.msrLE = false) (hd : s.cfg.dabr &&& 3 = 0)
  (h : s.directSegment ea = some sr) (ha : ea.toNat % 4 = 0)
include hle hd h ha

theorem State.load_direct_ok
    (run : exec i s = s.loadForm i .load f ea 4 (fun b t => t.writeGpr r (wordOf b)) rest)
    (he : s.drawWord.2.drawBit.1 = false) :
    exec i s = .next (rest (s.directLoaded sr ea r s.directWord)).advance := by
  rw [run, State.loadForm_direct hle hd h ha, he]
  rfl

theorem State.load_direct_error
    (run : exec i s = s.loadForm i .load f ea 4 (fun b t => t.writeGpr r (wordOf b)) rest)
    (he : s.drawWord.2.drawBit.1 = true) :
    exec i s = .next ((s.directLoaded sr ea r s.directWord).takeDirectError 0x80000000 ea) := by
  rw [run, State.loadForm_direct hle hd h ha, he]
  rfl

theorem State.store_direct_ok (run : exec i s = s.storeForm i .store f ea (lowBytes 4 (s.readGpr r)) rest)
    (he : s.drawBit.1 = false) : exec i s = .next (rest (s.directSent sr ea (s.readGpr r))).advance := by
  rw [run, State.storeForm_direct hle hd h ha, he]
  rfl

theorem State.store_direct_error (run : exec i s = s.storeForm i .store f ea (lowBytes 4 (s.readGpr r)) rest)
    (he : s.drawBit.1 = true) :
    exec i s = .next ((s.directSent sr ea (s.readGpr r)).takeDirectError 0x82000000 ea) := by
  rw [run, State.storeForm_direct hle hd h ha, he]
  rfl

end

/-! ### The instructions that may not be used there, and those that do nothing -/

theorem State.withAddress_direct (hu : u ≠ .fetch) (h : s.directSegment ea = some sr) (direct : State → Result)
    (k : Word → BitVec 4 → State → Result) : s.withAddress i f u ea direct k = direct s := by
  rw [State.withAddress, State.translate_direct hu h]

theorem State.touchAddress_direct (h : s.directSegment ea = some sr) : s.touchAddress ea = .next s.advance := by
  obtain ⟨hdr, hlegal, hbat, hsr, hT⟩ := State.directSegment_eq_some.1 h
  simp [State.touchAddress, State.translateTouch, hdr, hlegal, hbat, hsr, hT]

end

section
variable {s : State} {r rA rB : Reg} {rc : Bool} {sr : Word}

theorem State.external_direct {i : Instr} {u : Use} {ea : Word} (hu : u ≠ .fetch) (ha : ea.toNat % 4 = 0)
    (he : beBit s.cfg.ear 0 = true) (h : s.directSegment ea = some sr) (k : Word → State → Result) :
    s.external i u ea k = .next (s.takeDirectDsi u ea) := by
  have aligned : wordAligned ea = true := (wordAligned_iff ea).2 ha
  simp [State.external, aligned, he, State.withAddress_direct hu h]

theorem exec_lwarx_direct (h : s.directSegment (s.eaX rA rB) = some sr) (ha : (s.eaX rA rB).toNat % 4 = 0) :
    exec (.lwarx r rA rB rc) s = .next (s.takeDirectDsi .lwarx (s.eaX rA rB)) := by
  have run : exec (.lwarx r rA rB rc) s = execLwarx r rA rB rc s := rfl
  rw [run, execLwarx]
  dsimp only
  rw [if_pos ((wordAligned_iff _).2 ha), State.withAddress_direct (by decide) h]

theorem exec_stwcxRec_direct (h : s.directSegment (s.eaX rA rB) = some sr) (ha : (s.eaX rA rB).toNat % 4 = 0) :
    exec (.stwcxRec r rA rB rc) s = .next (s.takeDirectDsi .stwcx (s.eaX rA rB)) := by
  have run : exec (.stwcxRec r rA rB rc) s = execStwcxRec r rA rB rc s := rfl
  rw [run, execStwcxRec]
  dsimp only
  rw [if_pos ((wordAligned_iff _).2 ha), State.withAddress_direct (by decide) h]

/-- The cache instructions do nothing in a direct-store segment (R680). -/
theorem exec_cache_direct (h : s.directSegment (s.eaX rA rB) = some sr) :
    ∀ i ∈ [Instr.dcbt rA rB, .dcbtst rA rB, .dcbz rA rB, .dcbst rA rB, .dcbf rA rB, .icbi rA rB],
      exec i s = .next { s with pc := s.pc + 4 } := by
  intro i hi
  fin_cases hi
  · exact State.touchAddress_direct h
  · exact State.touchAddress_direct h
  · exact State.withAddress_direct (by decide) h _ _
  · exact State.withAddress_direct (by decide) h _ _
  · exact State.withAddress_direct (by decide) h _ _
  · exact State.withAddress_direct (by decide) h _ _

end

/-- Settles O31: the transfers of a word with both replies, and the one answer of the translation for the rest. -/
theorem directStoreAccesses : Obligations.DirectStoreAccesses := by
  refine ⟨fun s a hdr hlegal hbat hT => State.directSegment_eq_some.2 ⟨hdr, hlegal, hbat, rfl, hT⟩,
    mixedDsi_oneCause, ?_⟩
  intro s r rA rB d rc sr hle hd base ea ex key op loaded sent dsi failed based
  refine ⟨fun h ha => ⟨s.directWord, s.drawWord.2.drawBit.1, fun he => ⟨?_, fun h0 hr => ?_⟩, fun he => ⟨?_, ?_⟩⟩,
    fun h ha => ⟨s.drawBit.1, fun he => ⟨?_, fun h0 => ?_⟩, fun he => ⟨?_, ?_⟩⟩, fun h => ?_⟩
  · exact State.load_direct_ok id hle hd h ha rfl he
  · rw [State.load_direct_ok (fun t => t.updateLoad r rA ea) hle hd h ha rfl he, State.updateLoad, if_neg h0, if_neg hr]
    rfl
  · exact ⟨_, State.load_direct_error id hle hd h ha rfl he, State.tookException_takeDirectError _ _ _⟩
  · exact ⟨_, State.load_direct_error (fun t => t.updateLoad r rA ea) hle hd h ha rfl he,
      State.tookException_takeDirectError _ _ _⟩
  · exact State.store_direct_ok id hle hd h ha rfl he
  · rw [State.store_direct_ok (fun t => t.updateBase rA ea) hle hd h ha rfl he, State.updateBase, if_neg h0]
    rfl
  · exact ⟨_, State.store_direct_error id hle hd h ha rfl he, State.tookException_takeDirectError _ _ _⟩
  · exact ⟨_, State.store_direct_error (fun t => t.updateBase rA ea) hle hd h ha rfl he,
      State.tookException_takeDirectError _ _ _⟩
  · refine ⟨fun ha => ⟨?_, ?_, fun he => ⟨?_, ?_⟩⟩, exec_cache_direct h, fun hpr => ?_⟩
    · exact ⟨_, exec_lwarx_direct h ha, s.tookException_takeDsi _ _⟩
    · exact ⟨_, exec_stwcxRec_direct h ha, s.tookException_takeDsi _ _⟩
    · exact ⟨_, State.external_direct (by decide) ha he h _, s.tookException_takeDsi _ _⟩
    · exact ⟨_, State.external_direct (by decide) ha he h _, s.tookException_takeDsi _ _⟩
    · exact (State.supervisorOnly_supervisor hpr _).trans (State.withAddress_direct (by decide) h _ _)

end Sys2Proof.Machine
end

section
/-! SUPPORT. Proofs/CacheBlocks.lean: what the cache instructions do to a block, its bytes and memory (O35). -/

namespace Sys2Proof.Machine

section
variable {s : State} {pa : Word} {wimg : BitVec 4}

/-! ### `dcbz` -/

theorem blockByte_zero (i : Nat) : blockByte (Vector.replicate 32 0) i = 0 := by
  rw [blockByte, Vector.toList_replicate, List.getD_eq_getElem?_getD, List.getElem?_replicate]
  split <;> rfl

/-- The block put in the cache hides what was there; every other byte stays. -/
theorem State.putD_zero {u : State} (hu : s.onlyMemorySystem u) (hb : s.sameBytes u) (hon : s.dcacheOn = true)
    (b : BitVec 27) : s.onlyMemorySystem (u.putD ⟨b, Vector.replicate 32 0, .modified⟩) ∧
      (∀ a, blockOf a = b → (u.putD ⟨b, Vector.replicate 32 0, .modified⟩).dataByte a = 0) ∧
      ∀ a, blockOf a ≠ b → (u.putD ⟨b, Vector.replicate 32 0, .modified⟩).dataByte a = s.dataByte a := by
  have on : u.dcacheOn = true := by rw [hu]; exact hon
  refine ⟨?_, fun a ha => ?_, fun a ha => ?_⟩
  · rw [hu]
    rfl
  · rw [State.dataByte_putD _ _ on, if_pos ha, blockByte_zero]
  · rw [State.dataByte_putD _ _ on, if_neg ha, hb a]

theorem State.zeroBlock_spec (hs : s.dataSound) (hon : s.dcacheOn = true) :
    s.onlyMemorySystem (s.zeroBlock wimg pa) ∧
      (∀ a, blockOf a = blockOf pa → (s.zeroBlock wimg pa).dataByte a = 0) ∧
      ∀ a, blockOf a ≠ blockOf pa → (s.zeroBlock wimg pa).dataByte a = s.dataByte a := by
  unfold State.zeroBlock
  dsimp only
  split
  · split
    · exact State.putD_zero (u := s.logBlockOp .kill wimg pa) rfl (fun _ => rfl) hon _
    · exact State.putD_zero (u := s) rfl (fun _ => rfl) hon _
  · obtain ⟨only, same, -, -⟩ := s.evictD_spec (blockOf pa) hon hs
    refine State.putD_zero (u := (s.evictD (blockOf pa)).logBlockOp .kill wimg pa) ?_ (fun a => same a) hon _
    rw [only]
    rfl

/-! ### `dcbst` and `dcbf` -/

/-- A modified block that is written back: memory holds what was seen in it, and the rest of memory stays. -/
theorem State.writeBack_spec (hs : s.dataSound) (hon : s.dcacheOn = true) {l : DLine}
    (hf : findD s.dcache (blockOf pa) = some l) (hm : l.mesi = .modified) :
    s.onlyMemorySystem (s.writeBack l) ∧ (s.writeBack l).dcache = s.dcache ∧
      (∀ a, blockOf a = blockOf pa → Memory.read (s.writeBack l).mem a.toNat = s.dataByte a) ∧
      ∀ a, blockOf a ≠ blockOf pa → Memory.read (s.writeBack l).mem a.toNat = Memory.read s.mem a.toNat := by
  obtain ⟨hw, hd⟩ := hs
  obtain ⟨-, -, inRam⟩ := hd hon
  obtain ⟨mem, block⟩ := findD_some hf
  rw [State.writeBack_ram (inRam l mem hm)]
  refine ⟨rfl, rfl, fun a ha => ?_, fun a ha => ?_⟩
  · rw [read_writeBack _ hw, if_pos (ha.trans block.symm), State.dataByte_hit hon (by rw [ha, hf])]
  · rw [read_writeBack _ hw, if_neg (by rw [block]; exact ha)]

/-- The bytes of a block that is not modified, or not there, are memory's. -/
theorem State.memory_of_clean (hs : s.dataSound) (hon : s.dcacheOn = true)
    (h : ∀ l, findD s.dcache (blockOf pa) = some l → l.mesi ≠ .modified) {a : Word} (ha : blockOf a = blockOf pa) :
    Memory.read s.mem a.toNat = s.dataByte a := by
  obtain ⟨-, coherent, -⟩ := hs.2 hon
  cases hf : findD s.dcache (blockOf pa) with
  | none => rw [State.dataByte_miss (by rw [ha, hf])]
  | some l =>
    obtain ⟨mem, block⟩ := findD_some hf
    rw [State.dataByte_hit hon (by rw [ha, hf]), State.coherent_byte coherent mem (h l hf) (ha.trans block.symm)]

theorem State.storeBlock_spec (hs : s.dataSound) (hon : s.dcacheOn = true) :
    s.onlyMemorySystem (s.storeBlock wimg pa) ∧ s.sameBytes (s.storeBlock wimg pa) ∧
      ∀ a, blockOf a = blockOf pa → Memory.read (s.storeBlock wimg pa).mem a.toNat = s.dataByte a := by
  unfold State.storeBlock
  rw [if_pos hon]
  split
  · rename_i l hf
    obtain ⟨-, block⟩ := findD_some hf
    split
    · rename_i hm
      obtain ⟨only, cache, inside, outside⟩ := State.writeBack_spec hs hon hf hm
      have on : (s.writeBack l).dcacheOn = true := by rw [only]; exact hon
      refine ⟨?_, fun a => ?_, inside⟩
      · rw [only]
        rfl
      · rw [State.dataByte_putD _ _ on]
        split
        · rename_i ha
          rw [State.dataByte_hit hon (l := l) (by rw [ha, block, hf])]
        · rename_i ha
          have ha' : blockOf a ≠ blockOf pa := fun e => ha (e.trans block.symm)
          cases hx : findD s.dcache (blockOf a) with
          | none => rw [State.dataByte_miss hx, State.dataByte_miss (by rw [cache, hx]), outside a ha']
          | some x => rw [State.dataByte_hit hon hx, State.dataByte_hit on (by rw [cache, hx])]
    · rename_i hm
      refine ⟨rfl, fun _ => rfl, fun a ha => State.memory_of_clean hs hon (fun x hx => ?_) ha⟩
      rw [Option.some.inj (hx.symm.trans hf)]
      exact hm
  · rename_i hf
    exact ⟨rfl, fun _ => rfl, fun a ha => State.memory_of_clean hs hon (fun x hx => by rw [hf] at hx; cases hx) ha⟩

/-- The cache without a block that agrees with memory shows what it showed. -/
theorem State.dropD_sameBytes {u : State} (hu : s.onlyMemorySystem u) (hon : s.dcacheOn = true) (b : BitVec 27)
    (cache : u.dcache = s.dcache) (inside : ∀ a, blockOf a = b → Memory.read u.mem a.toNat = s.dataByte a)
    (outside : ∀ a, blockOf a ≠ b → Memory.read u.mem a.toNat = Memory.read s.mem a.toNat) :
    s.sameBytes { u with dcache := dropD u.dcache b } := by
  have on : State.dcacheOn { u with dcache := dropD u.dcache b } = true := by
    have : u.dcacheOn = true := by rw [hu]; exact hon
    exact this
  intro a
  by_cases ha : blockOf a = b
  · rw [State.dataByte_miss (by simp [findD_dropD, ha])]
    exact inside a ha
  · cases hx : findD s.dcache (blockOf a) with
    | none =>
      rw [State.dataByte_miss hx, State.dataByte_miss (by simp [findD_dropD, ha, cache, hx])]
      exact outside a ha
    | some x => rw [State.dataByte_hit hon hx, State.dataByte_hit on (l := x) (by simp [findD_dropD, ha, cache, hx])]

theorem State.flushBlock_spec (hs : s.dataSound) (hon : s.dcacheOn = true) :
    s.onlyMemorySystem (s.flushBlock wimg pa) ∧ s.sameBytes (s.flushBlock wimg pa) ∧
      findD (s.flushBlock wimg pa).dcache (blockOf pa) = none ∧
      ∀ a, blockOf a = blockOf pa → Memory.read (s.flushBlock wimg pa).mem a.toNat = s.dataByte a := by
  unfold State.flushBlock
  rw [if_pos hon]
  split
  · rename_i l hf
    obtain ⟨-, block⟩ := findD_some hf
    dsimp only
    rw [block]
    split
    · rename_i hm
      obtain ⟨only, cache, inside, outside⟩ := State.writeBack_spec hs hon hf hm
      refine ⟨?_, State.dropD_sameBytes only hon _ cache inside outside, by simp [findD_dropD], inside⟩
      rw [only]
      rfl
    · rename_i hm
      have inside (a : Word) (ha : blockOf a = blockOf pa) : Memory.read s.mem a.toNat = s.dataByte a :=
        State.memory_of_clean hs hon (fun x hx => by rw [Option.some.inj (hx.symm.trans hf)]; exact hm) ha
      exact ⟨rfl, State.dropD_sameBytes (u := s.logBlockOp .flush wimg pa) rfl hon _ rfl inside fun _ _ => rfl,
        by simp [findD_dropD], inside⟩
  · rename_i hf
    exact ⟨rfl, fun _ => rfl, hf,
      fun a ha => State.memory_of_clean hs hon (fun x hx => by rw [hf] at hx; cases hx) ha⟩

/-! ### `dcbi` and `icbi` -/

theorem State.discardBlock_spec (hon : s.dcacheOn = true) :
    s.onlyMemorySystem (s.discardBlock wimg pa) ∧ (s.discardBlock wimg pa).mem = s.mem ∧
      (∀ a, blockOf a = blockOf pa → (s.discardBlock wimg pa).dataByte a = Memory.read s.mem a.toNat) ∧
      ∀ a, blockOf a ≠ blockOf pa → (s.discardBlock wimg pa).dataByte a = s.dataByte a := by
  have on : (s.logBlockOp .kill wimg pa).dcacheOn = true := hon
  unfold State.discardBlock
  dsimp only
  rw [if_pos on]
  refine ⟨rfl, rfl, fun a ha => State.dataByte_miss (by simp [findD_dropD, ha]), fun a ha => ?_⟩
  have kept : findD (dropD s.dcache (blockOf pa)) (blockOf a) = findD s.dcache (blockOf a) := by
    rw [findD_dropD, if_neg ha]
  have on' : State.dcacheOn { s.logBlockOp .kill wimg pa with dcache := dropD s.dcache (blockOf pa) } = true := hon
  cases hx : findD s.dcache (blockOf a) with
  | none =>
    rw [State.dataByte_miss hx]
    exact State.dataByte_miss (kept.trans hx)
  | some x =>
    rw [State.dataByte_hit hon hx]
    exact State.dataByte_hit on' (kept.trans hx)

theorem findI_dropI (c : List ILine) (b : BitVec 27) : findI (dropI c b) b = none := by
  simp [findI, dropI]

theorem State.icbiBlock_eq (hon : s.icacheOn = true) : s.icbiBlock wimg pa =
    State.logTenure { s with icache := dropI s.icache (blockOf pa) } .icbi pa (busWim wimg false) 0 := by
  rw [State.icbiBlock, State.invalidateI, if_pos hon]

/-! ### `dcbt` and `dcbtst` -/

/-- `t` differs from `s` in the data cache, memory, the bus log, the count of free values and the note of a TEA at
most: what loading a block can change. -/
def State.onlyFill (s t : State) : Prop :=
  t = { s with dcache := t.dcache, mem := t.mem, busLog := t.busLog, fresh := t.fresh, tea := t.tea }

theorem State.onlyFill_trans {t u : State} (h : s.onlyFill t) (h' : t.onlyFill u) : s.onlyFill u := by
  unfold State.onlyFill at *
  rw [h', h]

theorem State.onlyFill_readBlock (s : State) (b : BitVec 27) : s.onlyFill (s.readBlock b).2 := by
  unfold State.readBlock
  split <;> rfl

theorem State.onlyFill_writeBack (s : State) (l : DLine) : s.onlyFill (s.writeBack l) := by
  unfold State.writeBack State.writeBlock
  split <;> rfl

theorem State.onlyFill_evictD (s : State) (b : BitVec 27) : s.onlyFill (s.evictD b) := by
  unfold State.evictD
  dsimp only
  split
  · rfl
  · split
    · rfl
    · split
      · exact State.onlyFill_trans (s.onlyFill_writeBack _) rfl
      · rfl

theorem State.onlyFill_blockForLoad (s : State) (wimg : BitVec 4) (k : BusKind) (pa addr : Word) (n : Nat) :
    s.onlyFill (s.blockForLoad wimg k pa addr n).2 := by
  have single : s.onlyFill ((s.readBlock (blockOf pa)).2.logTenure k addr (busWim wimg true) n) :=
    State.onlyFill_trans (s.onlyFill_readBlock _) rfl
  unfold State.blockForLoad
  dsimp only
  split
  · exact single
  · split
    · rfl
    · split
      · exact single
      · exact State.onlyFill_trans (State.onlyFill_trans (s.onlyFill_evictD _) (State.onlyFill_readBlock _ _)) rfl

/-- A touch changes nothing where the cache is off or locked or the storage is caching-inhibited. -/
theorem State.touches_eq_false (h : s.dcacheOn = false ∨ s.dcacheLocked = true ∨ wimg.getMsbD 1 = true) :
    s.touches wimg = false := by
  rcases h with h | h | h <;> simp [State.touches, State.bypassD, attrI, h]

theorem State.cacheable_of_touches (h : s.touches wimg = true) : attrI wimg = false := by
  simp only [State.touches, State.bypassD, Bool.and_eq_true, Bool.not_eq_true', Bool.or_eq_false_iff] at h
  exact h.1.2

end

end Sys2Proof.Machine
end

section
/-! SUPPORT. Proofs/CacheInstructions.lean: the cache instructions (O35). -/

namespace Sys2Proof.Machine

section
variable {s t : State} {ea pa : Word} {wimg : BitVec 4} {rA rB : Reg}

/-- What a cache instruction may change. -/
def State.onlyCaches (s t : State) : Prop :=
  t = { s with
    pc := s.pc + 4, dcache := t.dcache, icache := t.icache, dtlb := t.dtlb, mem := t.mem, busLog := t.busLog }

theorem State.onlyCaches_of_memorySystem (h : s.onlyMemorySystem t) : s.onlyCaches t.advance := by
  rw [h]
  rfl

/-- A cache instruction acts on the block its address translates to. -/
theorem State.onBlock_mapped {i : Instr} {u : Use} (h : s.translate u ea = (.mapped pa wimg, s))
    (k : BitVec 4 → Word → State → State) : s.onBlock i u ea k = .next (k wimg pa s).advance := by
  rw [State.onBlock, State.withAddress, h]

/-! ### The touches -/

/-- The translation of a touch changes the data TLB at most. -/
theorem State.translateTouch_state (h : s.translateTouch ea = some (pa, wimg, t)) : t = { s with dtlb := t.dtlb } := by
  unfold State.translateTouch at h
  split at h
  · obtain ⟨-, h⟩ := Prod.mk.inj (Option.some.inj h)
    obtain ⟨-, rfl⟩ := Prod.mk.inj h
    rfl
  split at h
  · split at h
    · obtain ⟨-, h⟩ := Prod.mk.inj (Option.some.inj h)
      obtain ⟨-, rfl⟩ := Prod.mk.inj h
      rfl
    · cases h
  · dsimp only at h
    split at h
    · cases h
    split at h
    · cases h
    split at h
    · obtain ⟨-, h⟩ := Prod.mk.inj (Option.some.inj h)
      obtain ⟨-, rfl⟩ := Prod.mk.inj h
      rfl
    · cases h

/-- A touch whose address no two DBATs and no malformed DBAT match looks up its block, or changes nothing. -/
theorem State.touchAddress_cases (single : (batHits s.mmu.dbat s.msrPR ea).length ≤ 1)
    (legal : batIllegal s.mmu.dbat s.msrPR ea = false) :
    s.touchAddress ea = .next s.advance ∨
    ∃ a w v, s.translateTouch ea = some (a, w, v) ∧ s.touches w = true ∧
      s.touchAddress ea = .next (v.touchBlock w a).advance := by
  rw [State.touchAddress, if_neg (Nat.not_lt.2 single), legal, Bool.and_false, if_neg Bool.false_ne_true]
  split
  · exact .inl rfl
  · rename_i a w v h
    by_cases touched : s.touches w = true
    · rw [if_pos touched]
      exact .inr ⟨a, w, v, h, touched, rfl⟩
    · rw [if_neg touched]
      exact .inl rfl

theorem State.touchBlock_only {v : State} (hv : v = { s with dtlb := v.dtlb }) :
    s.onlyCaches { (v.touchBlock wimg pa).advance with fresh := s.fresh, tea := s.tea } := by
  have fill := v.onlyFill_blockForLoad wimg .read pa pa 0
  rw [State.touchBlock, fill, hv]
  rfl

/-- Where all memory is RAM or ROM a touch changes no byte. -/
theorem State.touchBlock_plain {v : State} (hv : v = { s with dtlb := v.dtlb }) (hs : s.dataSound)
    (touched : s.touches wimg = true) (memory : ∀ b, s.kindOf b = .ram ∨ s.kindOf b = .rom) :
    s.onlyCaches (v.touchBlock wimg pa).advance ∧ s.sameBytes (v.touchBlock wimg pa).advance := by
  have sound : v.dataSound := by rw [hv]; exact hs
  have ordinary : v.ordinary .load (blockOf pa) := by
    rw [hv]
    exact (memory (blockOf pa)).imp id fun h => ⟨rfl, h⟩
  obtain ⟨only, same, -, -⟩ := v.blockForLoad_spec wimg .read pa pa 0 sound ordinary
    fun _ => State.cacheable_of_touches touched
  refine ⟨?_, fun a => (same a).trans ?_⟩
  · rw [State.touchBlock, only, hv]
    rfl
  · rw [hv]
    rfl

end

/-- Settles O35: each instruction by what it does to its block. -/
theorem cacheInstructions : Obligations.CacheInstructions := by
  intro s rA rB pa wimg ex only sound
  refine ⟨fun hon => ⟨fun plain => ?_, fun plain => ⟨?_, ?_⟩, fun hpr plain => ?_⟩, fun hion plain => ?_,
    fun single legal i hi => ?_⟩
  · obtain ⟨memory, inside, outside⟩ := State.zeroBlock_spec (pa := pa) (wimg := wimg) sound hon
    exact ⟨_, State.onBlock_mapped plain.1 _, State.onlyCaches_of_memorySystem memory, inside, outside⟩
  · obtain ⟨memory, same, stored⟩ := State.storeBlock_spec (pa := pa) (wimg := wimg) sound hon
    exact ⟨_, State.onBlock_mapped plain.1 _, State.onlyCaches_of_memorySystem memory, same, stored⟩
  · obtain ⟨memory, same, gone, stored⟩ := State.flushBlock_spec (pa := pa) (wimg := wimg) sound hon
    exact ⟨_, State.onBlock_mapped plain.1 _, State.onlyCaches_of_memorySystem memory, same, gone, stored⟩
  · obtain ⟨memory, kept, inside, outside⟩ := State.discardBlock_spec (pa := pa) (wimg := wimg) hon
    exact ⟨_, (State.supervisorOnly_supervisor hpr _).trans (State.onBlock_mapped plain.1 _),
      State.onlyCaches_of_memorySystem memory, kept, inside, outside⟩
  · refine ⟨_, State.onBlock_mapped plain.1 _, ?_, fun _ => ?_, ?_⟩
    · rw [State.icbiBlock_eq hion]
      rfl
    · rw [State.icbiBlock_eq hion]
      rfl
    · rw [State.icbiBlock_eq hion]
      exact findI_dropI _ _
  · have run : exec i s = s.touchAddress ex := by fin_cases hi <;> rfl
    rw [run]
    rcases State.touchAddress_cases single legal with h | ⟨a, w, v, found, touched, h⟩
    · exact ⟨_, h, rfl, fun _ => ⟨rfl, fun _ => rfl⟩, fun _ => rfl⟩
    · have hv := State.translateTouch_state found
      refine ⟨_, h, State.touchBlock_only hv, State.touchBlock_plain hv sound touched, fun none => ?_⟩
      have : s.touches w = false := by
        rcases none with off | locked | missing | ⟨a', w', v', found', inhibited⟩
        · exact State.touches_eq_false (.inl off)
        · exact State.touches_eq_false (.inr (.inl locked))
        · rw [found] at missing
          cases missing
        · rw [found] at found'
          cases found'
          exact State.touches_eq_false (.inr (.inr inhibited))
      rw [touched] at this
      cases this

end Sys2Proof.Machine
end

section
/-! SUPPORT. Proofs/BareOperands.lean: accesses of several parts that go straight to RAM (O27, O28). -/

namespace Sys2Proof.Machine

/-! ### Addresses -/

/-- The addresses of a part's bytes, where they are not translated. -/
def Part.addrs (p : Part) : List Word := span p.ea p.len

@[simp] theorem span_length (ea : Word) (n : Nat) : (span ea n).length = n := by simp [span]

/-- An operand's addresses, cut in two. -/
theorem span_append (ea : Word) (m n : Nat) : span ea (m + n) = span ea m ++ span (ea + BitVec.ofNat 32 m) n := by
  simp only [span, List.range_add, List.map_append, List.map_map]
  congr 1
  refine List.map_congr_left fun i _ => ?_
  rw [Function.comp_apply, BitVec.ofNat_add, BitVec.add_assoc]

/-- The parts of an operand of at most four bytes lie each in an aligned word (R154). -/
theorem splitParts_inside_word {ea : Word} {n : Nat} (hn : n ≤ 4) :
    ∀ p ∈ splitParts ea n, lowBits p.ea 2 + p.len ≤ 4 := by
  intro p hp
  unfold splitParts at hp
  split at hp
  · rename_i one
    obtain rfl := List.mem_singleton.1 hp
    dsimp only
    omega
  · rename_i two
    have low := lowBits_two ea
    rcases List.mem_cons.1 hp with rfl | hp
    · dsimp only
      omega
    · obtain rfl := List.mem_singleton.1 hp
      dsimp only
      rw [lowBits_two, BitVec.toNat_add, BitVec.toNat_ofNat]
      omega

/-- The parts of an operand are its bytes in order. -/
theorem splitParts_addrs (ea : Word) (n : Nat) : (splitParts ea n).flatMap Part.addrs = span ea n := by
  unfold splitParts
  split
  · simp [Part.addrs]
  · rename_i two
    have low := lowBits_two ea
    have cut : n = (4 - lowBits ea 2) + (n - (4 - lowBits ea 2)) := by omega
    simp only [List.flatMap_cons, List.flatMap_nil, List.append_nil, Part.addrs]
    conv => rhs; rw [cut, span_append]

theorem totalLen_splitParts (ea : Word) (n : Nat) : totalLen (splitParts ea n) = n := by
  unfold splitParts
  split
  · simp [totalLen]
  · rename_i two
    have low := lowBits_two ea
    simp only [totalLen, List.foldl_cons, List.foldl_nil]
    omega

/-! ### The operands of a multiple or a string -/

theorem regsFor_pos {n : Nat} (h : 0 < n) : regsFor n = regsFor (n - 4) + 1 := by
  unfold regsFor
  omega

theorem groups_pos (ea : Word) {n : Nat} (h : 0 < n) : groups ea n = ⟨ea, min 4 n⟩ :: groups (ea + 4) (n - 4) := by
  rw [groups, groups, regsFor_pos h, List.range_succ_eq_map, List.map_cons, List.map_map]
  congr 1
  · simp
  · refine List.map_congr_left fun k _ => ?_
    have next : BitVec.ofNat 32 (4 * (k + 1)) = 4 + BitVec.ofNat 32 (4 * k) := by
      rw [Nat.mul_add, Nat.add_comm, BitVec.ofNat_add]
      rfl
    have len : min 4 (n - 4 * (k + 1)) = min 4 (n - 4 - 4 * k) := by omega
    rw [Function.comp_apply, Nat.succ_eq_add_one, next, len, BitVec.add_assoc]

theorem groups_addrs (n : Nat) : ∀ ea : Word, (groups ea n).flatMap Part.addrs = span ea n := by
  induction n using Nat.strongRecOn with
  | ind n ih =>
    intro ea
    rcases Nat.eq_zero_or_pos n with rfl | h
    · rfl
    · rw [groups_pos ea h, List.flatMap_cons, ih (n - 4) (by omega), Part.addrs]
      by_cases big : 4 ≤ n
      · have cut : n = 4 + (n - 4) := by omega
        rw [Nat.min_eq_left big]
        conv => rhs; rw [cut, span_append]
        rfl
      · have rest : n - 4 = 0 := by omega
        rw [Nat.min_eq_right (by omega), rest]
        exact List.append_nil _

theorem groups_small {ea : Word} {n : Nat} : ∀ p ∈ groups ea n, p.len ≤ 4 := by
  intro p hp
  obtain ⟨k, -, rfl⟩ := List.mem_map.1 hp
  exact Nat.min_le_left _ _

section
variable {s : State}

/-! ### The pieces of an operand that is not translated -/

theorem State.directSegment_bare (h : s.bareData) (ea : Word) : s.directSegment ea = none := by
  obtain ⟨⟨hdr, -⟩, -⟩ := h
  simp [State.directSegment, State.segmentOf, hdr]

theorem State.pieces_bare (h : s.bareData) (p : Part) : s.pieces p = [.memory (splitParts p.ea p.len)] := by
  unfold State.pieces splitParts
  split_ifs <;> simp only [State.directSegment_bare h]

/-- The one piece in memory of an operand. -/
def Part.piece (p : Part) : Piece := .memory (splitParts p.ea p.len)

theorem mergePieces_piece (ops : List Part) : mergePieces (ops.map Part.piece) = ops.map Part.piece := by
  induction ops with
  | nil => rfl
  | cons p t ih => rw [List.map_cons, Part.piece, mergePieces, ih]

theorem State.flatMap_pieces_bare (h : s.bareData) (ops : List Part) : ops.flatMap s.pieces = ops.map Part.piece := by
  rw [List.map_eq_flatMap]
  exact List.flatMap_congr fun p _ => State.pieces_bare h p

theorem State.withPieces_bare (h : s.bareData) (u : Use) (ops : List Part) (k : List Piece → Acc) :
    s.withPieces u ops k = k (ops.map Part.piece) := by
  have memory : (ops.map Part.piece).any Piece.isDirect = false := by
    rw [List.any_map]
    exact List.any_eq_false.2 fun p _ => by simp [Part.piece, Piece.isDirect]
  rw [State.withPieces, State.flatMap_pieces_bare h, mergePieces_piece, memory]
  rfl

/-! ### Bytes in memory -/

/-- The bytes of memory at some addresses. -/
def State.memoryBytes (s : State) (l : List Word) : List Byte := l.map fun a => Memory.read s.mem a.toNat

theorem State.memoryBytes_append (s : State) (a b : List Word) :
    s.memoryBytes (a ++ b) = s.memoryBytes a ++ s.memoryBytes b := List.map_append

/-- A read of RAM past the cache gives memory's bytes and shows on the bus. -/
theorem State.loadPhys_bare (h : s.bareData) (wimg : BitVec 4) (k : BusKind) {pas : List Word} {b : BitVec 27}
    (hb : ∀ a ∈ pas, blockOf a = b) :
    ∃ l, s.loadPhys wimg k pas = (s.memoryBytes pas, { s with busLog := l }) := by
  obtain ⟨bare, ram⟩ := h
  cases pas with
  | nil => exact ⟨s.busLog, rfl⟩
  | cons pa t =>
    have bytes : (pa :: t).map (fun a => blockByte (memoryBlock s.mem (blockOf pa)) (blockOffset a)) =
        s.memoryBytes (pa :: t) := by
      refine List.map_congr_left fun a ha => ?_
      rw [blockByte_memoryBlock _ _ _ (blockOffset_lt a), addr_eq_block_offset a, hb a ha, hb pa List.mem_cons_self]
    rw [← bytes, State.loadPhys, State.blockForLoad, State.bypassD_bare bare, if_pos rfl,
      State.readBlock_plain (u := .load) (.inl (ram _))]
    exact ⟨_, rfl⟩

/-- A write of RAM past the cache writes memory and shows on the bus. -/
theorem State.storePhys_bare (h : s.bareData) (wimg : BitVec 4) (atomic : Bool) (ws : List (Word × Byte)) :
    ∃ l, s.storePhys wimg atomic ws = { s with mem := patchMemory s.mem ws, busLog := l } := by
  obtain ⟨bare, ram⟩ := h
  cases ws with
  | nil => exact ⟨s.busLog, rfl⟩
  | cons w t =>
    obtain ⟨pa, v⟩ := w
    unfold State.storePhys
    dsimp only
    rw [State.bypassD_bare bare, if_pos rfl, State.storeMemory_ram (ram _)]
    exact ⟨_, rfl⟩

theorem patchMemory_append (a b : List (Word × Byte)) :
    ∀ m, patchMemory m (a ++ b) = patchMemory (patchMemory m a) b := by
  induction a with
  | nil => exact fun _ => rfl
  | cons w t ih => exact fun m => ih _

theorem State.bareData_busLog (h : s.bareData) (l : List BusOp) : State.bareData { s with busLog := l } := h

theorem State.bareData_patched (h : s.bareData) (ws : List (Word × Byte)) (l : List BusOp) :
    State.bareData { s with mem := patchMemory s.mem ws, busLog := l } := by
  obtain ⟨⟨hdr, hle, hoff, hdabr, hbat, wf⟩, ram⟩ := h
  exact ⟨⟨hdr, hle, hoff, hdabr, hbat, wf_patchMemory ws _ wf⟩, ram⟩

/-! ### Loads -/

theorem loadParts_bare (ps : List Part) : ∀ {s : State}, s.bareData → (∀ p ∈ ps, lowBits p.ea 2 + p.len ≤ 4) →
    ∀ done, ∃ l, loadParts .load ps done s =
      .ok (done ++ s.memoryBytes (ps.flatMap Part.addrs)) { s with busLog := l } := by
  induction ps with
  | nil =>
    intro s _ _ done
    refine ⟨s.busLog, ?_⟩
    rw [loadParts, List.flatMap_nil, State.memoryBytes, List.map_nil, List.append_nil]
  | cons p t ih =>
    intro s h inside done
    have block := span_block (lowBits_inside (.inl (inside p List.mem_cons_self)))
    obtain ⟨l1, read⟩ := State.loadPhys_bare h 0b0011 .read block
    obtain ⟨l2, rest⟩ := ih (State.bareData_busLog h l1) (fun q hq => inside q (List.mem_cons_of_mem _ hq))
      (done ++ s.memoryBytes p.addrs)
    refine ⟨l2, ?_⟩
    rw [loadParts, State.translate_bare h.1 (.inl rfl)]
    dsimp only
    rw [physSpan_bare h.1, read, List.flatMap_cons, State.memoryBytes_append, ← List.append_assoc]
    exact rest

theorem loadPieces_bare (ops : List Part) : ∀ {s : State}, s.bareData → (∀ p ∈ ops, p.len ≤ 4) →
    ∀ done, ∃ l, loadPieces .load (ops.map Part.piece) none done s =
      .ok (done ++ s.memoryBytes (ops.flatMap Part.addrs)) { s with busLog := l } := by
  induction ops with
  | nil =>
    intro s _ _ done
    refine ⟨s.busLog, ?_⟩
    rw [List.map_nil, loadPieces, List.flatMap_nil, State.memoryBytes, List.map_nil, List.append_nil]
    rfl
  | cons p t ih =>
    intro s h small done
    obtain ⟨l1, read⟩ := loadParts_bare (splitParts p.ea p.len) h
      (splitParts_inside_word (small p List.mem_cons_self)) []
    rw [splitParts_addrs, List.nil_append] at read
    obtain ⟨l2, rest⟩ := ih (State.bareData_busLog h l1) (fun q hq => small q (List.mem_cons_of_mem _ hq))
      (done ++ s.memoryBytes p.addrs)
    refine ⟨l2, ?_⟩
    rw [List.map_cons, loadPieces, Part.piece, Piece.load, read]
    dsimp only
    rw [List.flatMap_cons, State.memoryBytes_append, ← List.append_assoc]
    exact rest

/-- A load of operands of at most four bytes each gives memory's bytes and changes the bus log at most. -/
theorem State.loadOperands_bare (h : s.bareData) {ops : List Part} (small : ∀ p ∈ ops, p.len ≤ 4) :
    ∃ l, s.loadOperands .load ops = .ok (s.memoryBytes (ops.flatMap Part.addrs)) { s with busLog := l } := by
  rw [State.loadOperands, State.withPieces_bare h]
  exact loadPieces_bare ops h small []

/-! ### Stores -/

theorem State.storePart_bare (h : s.bareData) (wimg : BitVec 4) (p : Part) {bs : List Byte} (hn : bs.length = p.len) :
    ∃ l, s.storePart wimg false p.ea bs = { s with mem := patchMemory s.mem (p.addrs.zip bs), busLog := l } := by
  rw [State.storePart, physSpan_bare h.1, hn]
  exact State.storePhys_bare h wimg false _

theorem storeOperand_bare (h : s.bareData) (p : Part) {bs : List Byte} (hn : bs.length = p.len) :
    ∃ l, storeOperand .store (splitParts p.ea p.len) bs s =
      .ok [] { s with mem := patchMemory s.mem (p.addrs.zip bs), busLog := l } := by
  unfold splitParts
  split
  · obtain ⟨l, stored⟩ := State.storePart_bare h 0b0011 p hn
    refine ⟨l, ?_⟩
    rw [storeOperand, State.translate_bare h.1 (.inr rfl)]
    exact congrArg (Acc.ok []) stored
  · rename_i two
    have low := lowBits_two p.ea
    obtain ⟨k, hk⟩ : ∃ k, 4 - lowBits p.ea 2 = k := ⟨_, rfl⟩
    have cut : p.len = k + (p.len - k) := by omega
    rw [hk]
    have front : (bs.take k).length = k := by rw [List.length_take]; omega
    have back : (bs.drop k).length = p.len - k := by rw [List.length_drop]; omega
    obtain ⟨l1, first⟩ := State.storePart_bare h 0b0011 ⟨p.ea, k⟩ front
    obtain ⟨l2, second⟩ := State.storePart_bare (State.bareData_patched h (Part.addrs ⟨p.ea, k⟩ |>.zip (bs.take k)) l1)
      0b0011 ⟨p.ea + BitVec.ofNat 32 k, p.len - k⟩ back
    have cells : p.addrs.zip bs = (Part.addrs ⟨p.ea, k⟩).zip (bs.take k) ++
        (Part.addrs ⟨p.ea + BitVec.ofNat 32 k, p.len - k⟩).zip (bs.drop k) := by
      rw [← List.zip_append (by rw [Part.addrs, span_length, front]), List.take_append_drop, Part.addrs,
        Part.addrs, Part.addrs, ← span_append, ← cut]
    refine ⟨l2, ?_⟩
    rw [storeOperand, State.translate_bare h.1 (.inr rfl)]
    dsimp only
    rw [State.translate_bare h.1 (.inr rfl)]
    dsimp only
    rw [first, second, cells, patchMemory_append]

theorem storePieces_bare (ops : List Part) : ∀ {s : State} {bs : List Byte}, s.bareData →
    bs.length = (ops.flatMap Part.addrs).length →
    ∃ l, storePieces .store (ops.map Part.piece) none bs s =
      .ok [] { s with mem := patchMemory s.mem ((ops.flatMap Part.addrs).zip bs), busLog := l } := by
  induction ops with
  | nil => exact fun {s} _ _ _ => ⟨s.busLog, rfl⟩
  | cons p t ih =>
    intro s bs h hn
    rw [List.flatMap_cons, List.length_append, Part.addrs, span_length] at hn
    have len : Piece.len p.piece = p.len := totalLen_splitParts p.ea p.len
    have front : (bs.take p.len).length = p.len := by rw [List.length_take]; omega
    have back : (bs.drop p.len).length = (t.flatMap Part.addrs).length := by rw [List.length_drop]; omega
    obtain ⟨l1, first⟩ := storeOperand_bare h p front
    obtain ⟨l2, rest⟩ := ih (State.bareData_patched h (p.addrs.zip (bs.take p.len)) l1) back
    have cells : (p.addrs ++ t.flatMap Part.addrs).zip bs =
        p.addrs.zip (bs.take p.len) ++ (t.flatMap Part.addrs).zip (bs.drop p.len) := by
      rw [← List.zip_append (by rw [Part.addrs, span_length, front]), List.take_append_drop]
    refine ⟨l2, ?_⟩
    rw [List.map_cons, storePieces, len, Part.piece, Piece.store, first]
    dsimp only
    rw [rest, List.flatMap_cons, cells, patchMemory_append]

theorem State.storedOperands_bare (h : s.bareData) (ops : List Part) :
    s.storedOperands .store ops = (ops.map Part.piece, s) := by
  induction ops with
  | nil => rfl
  | cons p t ih =>
    have one : s.storedPieces .store p = ([p.piece], s) := by
      unfold State.storedPieces
      rw [State.pieces_bare h]
      rfl
    rw [State.storedOperands, one]
    dsimp only
    rw [ih]
    rfl

/-- A store of operands writes memory, byte by byte, and changes the bus log besides at most. -/
theorem State.storeOperands_bare (h : s.bareData) {ops : List Part} {bs : List Byte}
    (hn : bs.length = (ops.flatMap Part.addrs).length) :
    ∃ l, s.storeOperands .store ops bs =
      .ok [] { s with mem := patchMemory s.mem ((ops.flatMap Part.addrs).zip bs), busLog := l } := by
  rw [State.storeOperands, State.withPieces_bare h, State.storedOperands_bare h, mergePieces_piece]
  exact storePieces_bare ops h hn

end

end Sys2Proof.Machine
end

section
/-! SUPPORT. Proofs/MultipleLoads.lean: the loads of several registers (O27). -/

namespace Sys2Proof.Machine

/-! ### Registers written in a row (R555) -/

/-- Register numbers wrap after 31, and 32 in a row are distinct. -/
theorem reg_add_ne {r : Reg} {i j : Nat} (hi : i < 32) (hj : j < 32) (hij : i ≠ j) :
    r + BitVec.ofNat 5 i ≠ r + BitVec.ofNat 5 j := by
  intro e
  have := congrArg BitVec.toNat e
  have := r.isLt
  simp only [BitVec.toNat_add, BitVec.toNat_ofNat] at *
  omega

theorem reg_add_succ (r : Reg) (j : Nat) : r + 1 + BitVec.ofNat 5 j = r + BitVec.ofNat 5 (j + 1) := by
  rw [Nat.add_comm j, BitVec.ofNat_add, BitVec.add_assoc]
  rfl

theorem State.writeRegs_state (vs : List Word) : ∀ (s : State) (r : Reg),
    s.writeRegs r vs = { s with gpr := (s.writeRegs r vs).gpr } := by
  induction vs with
  | nil => exact fun _ _ => rfl
  | cons v t ih =>
    intro s r
    rw [State.writeRegs, ih]
    rfl

theorem State.readGpr_writeRegs_other (vs : List Word) : ∀ (s : State) (r q : Reg),
    (∀ j < vs.length, q ≠ r + BitVec.ofNat 5 j) → (s.writeRegs r vs).readGpr q = s.readGpr q := by
  induction vs with
  | nil => exact fun _ _ _ _ => rfl
  | cons v t ih =>
    intro s r q hq
    have first : q ≠ r := by simpa using hq 0 (by simp)
    rw [State.writeRegs, ih, State.readGpr_writeGpr_other _ _ _ _ first]
    intro j hj
    rw [reg_add_succ]
    exact hq (j + 1) (by simpa using hj)

theorem State.readGpr_writeRegs_mem (vs : List Word) : ∀ (s : State) (r : Reg), vs.length ≤ 32 →
    ∀ j (hj : j < vs.length), (s.writeRegs r vs).readGpr (r + BitVec.ofNat 5 j) = vs[j] := by
  induction vs with
  | nil => exact fun _ _ _ j hj => absurd hj (Nat.not_lt_zero j)
  | cons v t ih =>
    intro s r hn j hj
    rw [List.length_cons] at hn hj
    rw [State.writeRegs]
    cases j with
    | zero =>
      have first : r + BitVec.ofNat 5 0 = r := BitVec.add_zero r
      rw [first, State.readGpr_writeRegs_other, State.readGpr_writeGpr_same, List.getElem_cons_zero]
      intro k hk
      rw [reg_add_succ]
      have := reg_add_ne (r := r) (i := 0) (j := k + 1) (by omega) (by omega) (by omega)
      rwa [first] at this
    | succ j =>
      rw [← reg_add_succ, ih _ _ (by omega) j (by omega), List.getElem_cons_succ]

/-! ### The words (R550, R555) -/

theorem packWords_length (k : Nat) : ∀ bs, (packWords k bs).length = k := by
  induction k with
  | zero => exact fun _ => rfl
  | succ k ih => exact fun bs => congrArg (· + 1) (ih _)

/-- Word `j` is bytes 4j to 4j + 3, zeros where there are none. -/
theorem packWords_getElem (k : Nat) : ∀ (bs : List Byte) (j : Nat) (hj : j < (packWords k bs).length),
    (packWords k bs)[j] =
      bs.getD (4 * j) 0 ++ bs.getD (4 * j + 1) 0 ++ bs.getD (4 * j + 2) 0 ++ bs.getD (4 * j + 3) 0 := by
  induction k with
  | zero => exact fun _ _ hj => absurd hj (Nat.not_lt_zero _)
  | succ k ih =>
    intro bs j hj
    cases j with
    | zero =>
      rw [← wordOf_four]
      rcases bs with _ | ⟨a, _ | ⟨b, _ | ⟨c, _ | ⟨d, t⟩⟩⟩⟩ <;> rfl
    | succ j =>
      have rest := ih (bs.drop 4) j (by simpa [packWords] using hj)
      have byte (i : Nat) : (bs.drop 4).getD i 0 = bs.getD (4 + i) 0 := by
        rw [List.getD_eq_getElem?_getD, List.getElem?_drop, ← List.getD_eq_getElem?_getD]
      simp only [byte] at rest
      have next : 4 * (j + 1) = 4 + 4 * j := by omega
      simp only [packWords, List.getElem_cons_succ, rest, next, Nat.add_assoc]

section
variable {s : State}

theorem State.memoryBytes_getD (s : State) (ea : Word) (n i : Nat) :
    (s.memoryBytes (span ea n)).getD i 0 = if i < n then s.bareByte ea i else 0 := by
  by_cases h : i < n <;> simp [State.memoryBytes, span, State.bareByte, h]

/-- Register `j` of the words that a load of `n` bytes packs. -/
theorem State.packWords_memoryBytes (s : State) (ea : Word) (n j : Nat)
    (hj : j < (packWords (regsFor n) (s.memoryBytes (span ea n))).length) :
    (packWords (regsFor n) (s.memoryBytes (span ea n)))[j] = s.packedWord ea n j := by
  rw [packWords_getElem]
  simp only [State.memoryBytes_getD]
  rfl

/-- Registers written with the packed words after a load that changed the bus log at most. -/
theorem State.loadedRegs_writeRegs (s : State) {rD : Reg} {ea : Word} {n : Nat} (hn : n ≤ 128) (l : List BusOp) :
    s.loadedRegs (State.writeRegs { s with busLog := l } rD
      (packWords (regsFor n) (s.memoryBytes (span ea n)))).advance rD ea n := by
  have len : (packWords (regsFor n) (s.memoryBytes (span ea n))).length = (n + 3) / 4 := packWords_length _ _
  refine ⟨?_, fun j hj => ?_, fun q hq => ?_⟩
  · rw [State.writeRegs_state]
    rfl
  · rw [State.readGpr_advance, State.readGpr_writeRegs_mem _ _ _ (by omega) j (by omega), State.packWords_memoryBytes]
  · rw [State.readGpr_advance, State.readGpr_writeRegs_other _ _ _ _ (by rwa [len])]
    rfl

/-! ### The instructions -/

variable {i : Instr} {rD : Reg} {ea : Word} {n : Nat}

/-- A valid load of several registers completes. -/
theorem State.loadRegs_bare (h : s.bareData) (hn : n ≤ 128) {bad : Bool} (valid : bad = false)
    (run : exec i s = s.loadRegs i rD ea n bad false) : ∃ t, exec i s = .next t ∧ s.loadedRegs t rD ea n := by
  obtain ⟨l, read⟩ := State.loadOperands_bare h (ops := groups ea n) groups_small
  rw [groups_addrs] at read
  refine ⟨_, run.trans ?_, State.loadedRegs_writeRegs s hn l⟩
  rw [State.loadRegs, read, valid]
  rfl

/-- A load of a word completes at any address. -/
theorem State.loadWord_bare (h : s.bareData) {f : AlignForm}
    (run : exec i s = s.loadForm i .load f ea 4 (fun b t => t.writeGpr rD (wordOf b)) fun t => t) :
    ∃ t, exec i s = .next t ∧ s.loadedRegs t rD ea 4 := by
  have small : ∀ p ∈ [(⟨ea, 4⟩ : Part)], p.len ≤ 4 := by simp
  obtain ⟨l, read⟩ := State.loadOperands_bare h small
  have addrs : [(⟨ea, 4⟩ : Part)].flatMap Part.addrs = span ea 4 := List.append_nil _
  rw [addrs] at read
  have order : State.orderBytes { s with busLog := l } (s.memoryBytes (span ea 4)) = s.memoryBytes (span ea 4) := by
    have le : State.msrLE { s with busLog := l } = false := h.1.2.1
    rw [State.orderBytes, le]
    rfl
  refine ⟨_, run.trans ?_, State.loadedRegs_writeRegs s (by decide) l⟩
  rw [State.loadForm, State.memRead, read]
  exact congrArg (fun b => Host.Outcome.next (State.writeGpr _ rD (wordOf b)).advance) order

end

/-- Settles O27: each valid form is one load of registers, which packs memory's bytes. -/
theorem multipleAndStringLoads : Obligations.MultipleAndStringLoads := by
  intro s rD rA rB d nb h base n m
  have big : s.msrLE = false := h.1.2.1
  have count : s.stringCount = m := s.stringCount_eq
  refine ⟨fun hA ha => ?_, fun crosses valid => ?_, fun hm crosses validA validB => ?_, State.loadWord_bare h rfl,
    State.loadWord_bare h rfl⟩
  · have aligned : (s.msrLE || !wordAligned (s.eaD rA d)) = false := by
      rw [big, (wordAligned_iff (s.eaD rA d)).2 ha]
      rfl
    have valid : decide (rD ≤ rA) = false := decide_eq_false (BitVec.not_le.2 hA)
    exact State.loadRegs_bare h (by omega) valid (exec_ite_passed aligned rfl)
  · have passed : (s.msrLE || stringCrosses (s.eaR rA) (stringImm nb)) = false := by
      rw [big]
      exact crosses
    have short : stringImm nb ≤ 128 := (stringImm_le nb).trans (by decide)
    exact State.loadRegs_bare h short valid (exec_ite_passed passed rfl)
  · have short : m ≤ 128 := (Nat.mod_lt _ (by decide)).le
    clear_value m
    subst count
    have passed : (s.msrLE || stringCrosses (s.eaX rA rB) s.stringCount) = false := by
      rw [big]
      exact crosses
    have valid : (inRegRange rD rA (regsFor s.stringCount) || inRegRange rD rB (regsFor s.stringCount)) = false :=
      Bool.or_eq_false_iff.2 ⟨validA, validB⟩
    exact State.loadRegs_bare h short valid ((exec_ite_passed passed rfl).trans (if_neg hm.ne'))

end Sys2Proof.Machine
end

section
/-! SUPPORT. Proofs/MultipleStores.lean: the stores of several registers (O28). -/

namespace Sys2Proof.Machine

/-! ### The bytes of registers in a row (R555) -/

/-- Byte `k` of the registers from `r` on. -/
def State.regByte (s : State) (r : Reg) (k : Nat) : Byte :=
  (s.readGpr (r + BitVec.ofNat 5 (k / 4))).extractLsb' (24 - 8 * (k % 4)) 8

theorem State.lowBytes_regByte (s : State) (r : Reg) (m : Nat) :
    lowBytes 4 (s.readGpr (r + BitVec.ofNat 5 m)) = (List.range 4).map fun k => s.regByte r (4 * m + k) := by
  rw [lowBytes_four]
  refine List.map_congr_left fun k hk => ?_
  have hk := List.mem_range.1 hk
  rw [State.regByte, Nat.mul_add_div (by decide), Nat.div_eq_of_lt hk, Nat.mul_add_mod, Nat.mod_eq_of_lt hk]
  rfl

theorem State.regBytes_eq (s : State) (r : Reg) (m : Nat) :
    s.regBytes r m = (List.range (4 * m)).map (s.regByte r) := by
  induction m with
  | zero => rfl
  | succ m ih =>
    rw [Nat.mul_succ, List.range_add, List.map_append, ← ih, List.map_map, State.regBytes, List.range_succ,
      List.flatMap_append, List.flatMap_singleton, State.lowBytes_regByte]
    rfl

theorem State.regBytes_take (s : State) (r : Reg) (n : Nat) :
    (s.regBytes r (regsFor n)).take n = (List.range n).map (s.regByte r) := by
  have enough : min n (4 * regsFor n) = n := by unfold regsFor; omega
  rw [State.regBytes_eq, ← List.map_take, List.take_range, enough]

/-- The cells of memory that a store of `n` bytes from the registers from `r` on writes. -/
def State.regCells (s : State) (r : Reg) (ea : Word) (n : Nat) : List (Word × Byte) :=
  (List.range n).map fun k => (ea + BitVec.ofNat 32 k, s.regByte r k)

theorem State.regCells_eq_zip (s : State) (r : Reg) (ea : Word) (n : Nat) :
    (span ea n).zip ((List.range n).map (s.regByte r)) = s.regCells r ea n := by
  rw [span, List.zip_map']
  rfl

theorem State.regCells_fst (s : State) (r : Reg) (ea : Word) (n : Nat) :
    (s.regCells r ea n).map Prod.fst = span ea n := by
  simp [State.regCells, span]

/-- Fewer than 2^32 addresses in a row are distinct. -/
theorem span_nodup_of_le (ea : Word) {n : Nat} (hn : n ≤ 4294967296) : (span ea n).Nodup := by
  refine List.Nodup.map_on (fun i hi j hj e => ?_) List.nodup_range
  have hi := List.mem_range.1 hi
  have hj := List.mem_range.1 hj
  have e := congrArg BitVec.toNat e
  simp only [BitVec.toNat_add, BitVec.toNat_ofNat] at e
  have := ea.isLt
  omega

/-! ### The instructions -/

section
variable {s : State} {i : Instr} {rS : Reg} {ea : Word} {n : Nat} {f : AlignForm}

/-- Memory with the registers' bytes written, the bus log aside. -/
theorem State.storedRegs_patched (h : s.bareData) (hn : n ≤ 128) (l : List BusOp) :
    s.storedRegs (State.advance { s with mem := patchMemory s.mem (s.regCells rS ea n), busLog := l }) rS ea n := by
  obtain ⟨⟨-, -, -, -, -, wf⟩, -⟩ := h
  refine ⟨rfl, fun k hk => ?_, fun a ha => ?_⟩
  · have distinct : ((s.regCells rS ea n).map Prod.fst).Nodup := by
      rw [State.regCells_fst]
      exact span_nodup_of_le ea (by omega)
    exact read_patchMemory_mem _ s.mem wf distinct _ (List.mem_map.2 ⟨k, List.mem_range.2 hk, rfl⟩)
  · refine read_patchMemory_other _ s.mem wf _ fun p hp e => ?_
    obtain ⟨k, hk, rfl⟩ := List.mem_map.1 hp
    exact ha k (List.mem_range.1 hk) (BitVec.eq_of_toNat_eq e)

/-- A store of several registers completes. -/
theorem State.storeRegs_bare (h : s.bareData) (hn : n ≤ 128) (run : exec i s = s.storeRegs i f rS ea n false) :
    ∃ t, exec i s = .next t ∧ s.storedRegs t rS ea n := by
  obtain ⟨l, written⟩ := State.storeOperands_bare h (ops := groups ea n) (bs := (List.range n).map (s.regByte rS))
    (by rw [groups_addrs, span_length, List.length_map, List.length_range])
  rw [groups_addrs, State.regCells_eq_zip] at written
  refine ⟨_, run.trans ?_, State.storedRegs_patched h hn l⟩
  rw [State.storeRegs, State.regBytes_take, written]
  rfl

/-- A store of a word completes at any address. -/
theorem State.storeWord_bare (h : s.bareData)
    (run : exec i s = s.storeForm i .store f ea (lowBytes 4 (s.readGpr rS)) fun t => t) :
    ∃ t, exec i s = .next t ∧ s.storedRegs t rS ea 4 := by
  have bytes : lowBytes 4 (s.readGpr rS) = (List.range 4).map (s.regByte rS) := by
    simpa using s.lowBytes_regByte rS 0
  have order : s.orderBytes (lowBytes 4 (s.readGpr rS)) = lowBytes 4 (s.readGpr rS) := by
    rw [State.orderBytes, h.1.2.1]
    rfl
  have addrs : [(⟨ea, 4⟩ : Part)].flatMap Part.addrs = span ea 4 := List.append_nil _
  obtain ⟨l, written⟩ := State.storeOperands_bare h (ops := [⟨ea, 4⟩]) (bs := (List.range 4).map (s.regByte rS))
    (by rw [addrs, span_length]; rfl)
  rw [addrs, State.regCells_eq_zip] at written
  refine ⟨_, run.trans ?_, State.storedRegs_patched h (by decide) l⟩
  have len : (lowBytes 4 (s.readGpr rS)).length = 4 := rfl
  rw [State.storeForm, State.memWrite, order, len, bytes, written]
  rfl

end

/-- Settles O28: each form is one store of registers, whose bytes fill memory from the effective address on. -/
theorem multipleAndStringStores : Obligations.MultipleAndStringStores := by
  intro s rS rA rB d nb h base n m
  have big : s.msrLE = false := h.1.2.1
  have count : s.stringCount = m := s.stringCount_eq
  refine ⟨fun ha => ?_, fun crosses => ?_, fun crosses => ?_, State.storeWord_bare h rfl, State.storeWord_bare h rfl⟩
  · have aligned : (s.msrLE || !wordAligned (s.eaD rA d)) = false := by
      rw [big, (wordAligned_iff (s.eaD rA d)).2 ha]
      rfl
    exact State.storeRegs_bare h (by omega) (exec_ite_passed aligned rfl)
  · have passed : (s.msrLE || stringCrosses (s.eaR rA) (stringImm nb)) = false := by
      rw [big]
      exact crosses
    have short : stringImm nb ≤ 128 := (stringImm_le nb).trans (by decide)
    exact State.storeRegs_bare h short (exec_ite_passed passed rfl)
  · have short : m ≤ 128 := (Nat.mod_lt _ (by decide)).le
    clear_value m
    subst count
    have passed : (s.msrLE || stringCrosses (s.eaX rA rB) s.stringCount) = false := by
      rw [big]
      exact crosses
    exact State.storeRegs_bare h short (exec_ite_passed passed rfl)

end Sys2Proof.Machine
end

section
/-! SUPPORT. Proofs/BlockTranslation.lean: fields counted from the most significant end, and the BAT match and address
they give (O52). -/

namespace Sys2Proof.Machine

/-! ### Fields (R11) -/

/-- A bit of a field is the bit of the register at its place in the field. -/
theorem getMsbD_field {n low len k : Nat} (w : BitVec n) (hk : k < len) (hw : low + len ≤ n) :
    (w.extractLsb' low len).getMsbD k = beBit w (n - (low + len) + k) := by
  rw [BitVec.getMsbD_extractLsb', beBit, show n - (low + len - k) = n - (low + len) + k by omega]
  simp [hk, show low + len ≤ n + k by omega]

/-- Two words of bits are equal where their bits are. -/
theorem eq_iff_getMsbD {n : Nat} {x y : BitVec n} : x = y ↔ ∀ k < n, x.getMsbD k = y.getMsbD k :=
  ⟨fun h _ _ => by rw [h], BitVec.eq_of_getMsbD_eq⟩

/-! ### The match (R208) -/

/-- The bits of a field from bit `a` on, counted from the field's first bit and from the register's. -/
theorem forall_field_iff {a len : Nat} {P : Nat → Prop} :
    (∀ k < len, P (a + k)) ↔ ∀ k, a ≤ k → k < a + len → P k := by
  refine ⟨fun h k ha hk => ?_, fun h k hk => h (a + k) (by omega) (by omega)⟩
  have := h (k - a) (by omega)
  rwa [Nat.add_sub_cancel' ha] at this

theorem Bat.validFor_iff (b : Bat) (pr : Bool) : b.validFor pr = true ↔
    (pr = false ∧ beBit b.upper 30 = true) ∨ (pr = true ∧ beBit b.upper 31 = true) := by
  cases pr <;> simp [Bat.validFor]

theorem Bat.region_iff (b : Bat) (ea : Word) : b.upper.extractLsb' 28 4 = ea.extractLsb' 28 4 ↔
    ∀ k, k < 4 → beBit ea k = beBit b.upper k := by
  rw [eq_comm, eq_iff_getMsbD]
  refine forall_congr' fun k => imp_congr_right fun hk => ?_
  rw [getMsbD_field _ hk (by decide), getMsbD_field _ hk (by decide), Nat.zero_add]

theorem Bat.masked_iff (b : Bat) (ea : Word) :
    ea.extractLsb' 17 11 &&& ~~~b.bl = b.upper.extractLsb' 17 11 ↔
      ∀ k, 4 ≤ k → k < 15 → (beBit ea k && !beBit b.upper (k + 15)) = beBit b.upper k := by
  rw [eq_iff_getMsbD, ← forall_field_iff (a := 4) (len := 11)]
  refine forall_congr' fun k => imp_congr_right fun hk => ?_
  rw [BitVec.getMsbD_and, BitVec.getMsbD_not, Bat.bl, getMsbD_field ea hk (by decide),
    getMsbD_field b.upper hk (by decide), getMsbD_field b.upper hk (by decide), decide_eq_true hk, Bool.true_and]
  rw [show 32 - (2 + 11) + k = 4 + k + 15 by omega]

theorem Bat.hits_iff (b : Bat) (pr : Bool) (ea : Word) : b.hits pr ea = true ↔
    (∀ k, k < 4 → beBit ea k = beBit b.upper k) ∧
    (∀ k, 4 ≤ k → k < 15 → (beBit ea k && !beBit b.upper (k + 15)) = beBit b.upper k) ∧
    ((pr = false ∧ beBit b.upper 30 = true) ∨ (pr = true ∧ beBit b.upper 31 = true)) := by
  rw [← Bat.region_iff, ← Bat.masked_iff, ← Bat.validFor_iff]
  simp only [Bat.hits, Bool.and_eq_true, beq_iff_eq]
  tauto

/-! ### The address (R209) -/

theorem Bat.address_region (b : Bat) (ea : Word) {k : Nat} (hk : k < 4) :
    beBit (b.address ea) k = beBit b.lower k := by
  rw [Bat.address, beBit, BitVec.getMsbD_append, if_neg (by omega), BitVec.getMsbD_append, if_neg (by omega),
    getMsbD_field _ hk (by decide), Nat.zero_add]

theorem Bat.address_block (b : Bat) (ea : Word) {k : Nat} (h4 : 4 ≤ k) (hk : k < 15) :
    beBit (b.address ea) k = (beBit b.lower k || (beBit ea k && beBit b.upper (k + 15))) := by
  have inField : k - 4 < 11 := by omega
  rw [Bat.address, beBit, BitVec.getMsbD_append, if_neg (by omega), BitVec.getMsbD_append, if_pos h4,
    BitVec.getMsbD_or, BitVec.getMsbD_and, Bat.bl, getMsbD_field _ inField (by decide),
    getMsbD_field _ inField (by decide), getMsbD_field _ inField (by decide),
    show 32 - (17 + 11) + (k - 4) = k by omega, show 32 - (2 + 11) + (k - 4) = k + 15 by omega]

theorem Bat.address_offset (b : Bat) (ea : Word) {k : Nat} (h15 : 15 ≤ k) (hk : k < 32) :
    beBit (b.address ea) k = beBit ea k := by
  rw [Bat.address, beBit, BitVec.getMsbD_append, if_pos h15, getMsbD_field _ (by omega) (by decide),
    show 32 - (0 + 17) + (k - (4 + 11)) = k by omega]

theorem Bat.wimg_bits (b : Bat) {k : Nat} (hk : k < 4) : b.wimg.getMsbD k = beBit b.lower (k + 25) := by
  rw [Bat.wimg, getMsbD_field _ hk (by decide), Nat.add_comm]

/-- Settles O52: the match and the address, field by field. -/
theorem batMatchAndAddress : Obligations.BatMatchAndAddress := fun b pr ea =>
  ⟨b.hits_iff pr ea, fun _ => b.address_region ea, fun _ => b.address_block ea, fun _ => b.address_offset ea,
    fun _ => b.wimg_bits⟩

end Sys2Proof.Machine
end

section
/-! SUPPORT. Proofs/FailedAccess.lean: a load or store whose translation fails takes the DSI (O30). -/

namespace Sys2Proof.Machine

section
variable {s v : State} {i : Instr} {u : Use} {f : XFault} {form : AlignForm} {ea : Word} {n : Nat} {bs : List Byte}

/-! ### The access -/

/-- The failures of a translation for data that end in a DSI for a plain load or store (R751). -/
def XFault.ofData : List XFault := [.pageFault, .protection, .breakpoint]

theorem failAcc_ofData (hf : f ∈ XFault.ofData) (u : Use) (ea : Word) (done : List Byte) (s : State) :
    failAcc f u ea done s = .dsi done (f.dsisr u) ea s := by
  fin_cases hf <;> rfl

/-- The DSISR bit of the cause (R751). -/
def XFault.dataCause (f : XFault) : Word :=
  if f = .pageFault then 0x40000000 else if f = .protection then 0x08000000 else 0x00400000

/-- DSISR has the bit of the cause, and bit 6 for a store (R751). -/
theorem XFault.dsisr_ofData (hf : f ∈ XFault.ofData) (u : Use) :
    f.dsisr u = if u.isStore then f.dataCause ||| 0x02000000 else f.dataCause := by
  fin_cases hf <;> cases h : u.isStore <;> simp [XFault.dsisr, XFault.dataCause, h]

/-- A failed translation is none of a direct-store segment. -/
theorem State.directSegment_of_fail (hu : u ≠ .fetch) (h : s.translate u ea = (.fail f, v)) :
    s.directSegment ea = none := by
  by_contra direct
  obtain ⟨sr, hsr⟩ := Option.ne_none_iff_exists'.1 direct
  rw [State.translate_direct hu hsr] at h
  cases (Prod.mk.inj h).1

theorem State.memRead_fail (hu : u ≠ .fetch) (hf : f ∈ XFault.ofData) (one : oneAccess ea n)
    (h : s.translate u ea = (.fail f, v)) : s.memRead u ea n = .dsi [] (f.dsisr u) ea v := by
  have inside := (oneAccess_iff ea n).1 one
  rw [State.memRead, State.loadOperands, State.withPieces_one inside (State.directSegment_of_fail hu h)]
  simp only [loadPieces, Piece.load, loadParts, h, failAcc_ofData hf, List.nil_append]

theorem State.memWrite_fail (hu : u ≠ .fetch) (hf : f ∈ XFault.ofData) (one : oneAccess ea bs.length)
    (h : s.translate u ea = (.fail f, v)) : s.memWrite u ea bs = .dsi [] (f.dsisr u) ea v := by
  have inside := (oneAccess_iff ea bs.length).1 one
  have direct := State.directSegment_of_fail hu h
  rw [State.memWrite, State.storeOperands, State.withPieces_one inside direct, State.storedOperands_one inside direct]
  simp only [mergePieces, storePieces, Piece.store, storeOperand, h, failAcc_ofData hf]

/-! ### The instruction -/

theorem State.takeDsi_gpr (c a : Word) : (v.takeDsi c a).gpr = v.gpr := State.enter_gpr ..

theorem State.takeDsi_fpr (c a : Word) : (v.takeDsi c a).fpr = v.fpr := State.enter_fpr ..

theorem State.takeDsi_srr1 (c a : Word) : (v.takeDsi c a).exc.srr1 = v.msr &&& 0x0000FFFF := BitVec.or_zero

/-- The DSI of a failed translation, taken in the state the translation left: what that may have changed is storage. -/
theorem State.failed_access (hf : f ∈ XFault.ofData) (h : s.translate u ea = (.fail f, v))
    (run : exec i s = .next (v.takeDsi (f.dsisr u) ea)) :
    s.onlyStorage v ∧ ∃ t, exec i s = .next t ∧ t.gpr = s.gpr ∧ t.fpr = s.fpr ∧ t.exc.srr1 = s.msr &&& 0x0000FFFF ∧
      State.tookException { v with
        exc := { v.exc with dsisr := if u.isStore then f.dataCause ||| 0x02000000 else f.dataCause, dar := ea } } t
        0x00300 s.pc 0 := by
  have storage : s.onlyStorage v := by
    have := (s.storageStep_translate u ea).1
    rwa [h] at this
  have gpr : v.gpr = s.gpr := by rw [storage]
  have fpr : v.fpr = s.fpr := by rw [storage]
  have msr : v.msr = s.msr := by rw [storage]
  have pc : v.pc = s.pc := by rw [storage]
  refine ⟨storage, _, run, (State.takeDsi_gpr _ _).trans gpr, (State.takeDsi_fpr _ _).trans fpr, ?_, ?_⟩
  · rw [State.takeDsi_srr1, msr]
  · rw [← pc, ← XFault.dsisr_ofData hf u]
    exact State.tookException_takeDsi _ _ _

theorem State.loadForm_fail (hu : u ≠ .fetch) (hf : f ∈ XFault.ofData) (one : oneAccess ea n)
    (h : s.translate u ea = (.fail f, v)) {put : List Byte → State → State} {rest : State → State} :
    s.loadForm i u form ea n put rest = .next (v.takeDsi (f.dsisr u) ea) := by
  rw [State.loadForm, State.memRead_fail hu hf one h]
  rfl

theorem State.storeForm_fail (hu : u ≠ .fetch) (hf : f ∈ XFault.ofData) (one : oneAccess ea n) (len : bs.length = n)
    (h : s.translate u ea = (.fail f, v)) {rest : State → State} :
    s.storeForm i u form ea bs rest = .next (v.takeDsi (f.dsisr u) ea) := by
  subst len
  rw [State.storeForm, State.memWrite_fail hu hf one h]
  rfl

theorem State.fpLoadForm_fail (hfp : s.msrFP = true) (aligned : ea.toNat % 4 = 0) (hf : f ∈ XFault.ofData)
    (one : oneAccess ea n) (h : s.translate .fpLoad ea = (.fail f, v)) {put : List Byte → State → State}
    {rest : State → State} : s.fpLoadForm i form ea n put rest = .next (v.takeDsi (f.dsisr .fpLoad) ea) := by
  rw [State.fpLoadForm, State.needFp, if_pos hfp, if_pos ((wordAligned_iff ea).2 aligned)]
  exact State.loadForm_fail (by decide) hf one h

theorem State.fpStoreForm_fail (hfp : s.msrFP = true) (aligned : ea.toNat % 4 = 0) (hf : f ∈ XFault.ofData)
    (one : oneAccess ea n) (len : bs.length = n) (h : s.translate .fpStore ea = (.fail f, v)) {rest : State → State} :
    s.fpStoreForm i form ea bs rest = .next (v.takeDsi (f.dsisr .fpStore) ea) := by
  rw [State.fpStoreForm, State.needFp, if_pos hfp, if_pos ((wordAligned_iff ea).2 aligned)]
  exact State.storeForm_fail (by decide) hf one len h

end

/-- Settles O30: each form is one access, which the failed translation ends before a register is written. -/
theorem failedDataAccessTakesDsi : Obligations.FailedDataAccessTakesDsi := by
  intro s v r rA rB d rc f base ea ex cause fails hf
  have dsi {i : Instr} {u : Use} {a : Word} {n : Nat} (run : oneAccess a n → s.translate u a = (.fail f, v) →
      exec i s = .next (v.takeDsi (f.dsisr u) a)) : fails i u a n :=
    fun one h => State.failed_access hf h (run one h)
  clear_value fails
  refine ⟨fun p hp => ?_, fun p hp => ?_, fun p hp => ?_, fun p hp => ?_,
    fun hfp aligned => ⟨fun p hp => ?_, fun p hp => ?_⟩, fun hfp aligned => ⟨fun p hp => ?_, fun p hp => ?_⟩⟩
  · fin_cases hp <;> refine dsi fun one h => ?_ <;> unfold exec
    all_goals exact State.loadForm_fail (by decide) hf one h
  · fin_cases hp <;> refine dsi fun one h => ?_ <;> unfold exec
    all_goals exact State.loadForm_fail (by decide) hf one h
  · fin_cases hp <;> refine dsi fun one h => ?_ <;> unfold exec
    all_goals exact State.storeForm_fail (by decide) hf one rfl h
  · fin_cases hp <;> refine dsi fun one h => ?_ <;> unfold exec
    all_goals exact State.storeForm_fail (by decide) hf one rfl h
  · fin_cases hp <;> refine dsi fun one h => ?_ <;> unfold exec
    all_goals exact State.fpLoadForm_fail hfp aligned hf one h
  · fin_cases hp <;> refine dsi fun one h => ?_ <;> unfold exec
    all_goals exact State.fpStoreForm_fail hfp aligned hf one rfl h
  · fin_cases hp <;> refine dsi fun one h => ?_ <;> unfold exec
    all_goals exact State.fpLoadForm_fail hfp aligned hf one h
  · fin_cases hp <;> refine dsi fun one h => ?_ <;> unfold exec
    all_goals exact State.fpStoreForm_fail hfp aligned hf one rfl h

end Sys2Proof.Machine
end

section
/-! SUPPORT. Proofs/PageTable.lean: the search of the page table, and the bytes of a PTE that R and C are written to
(O53). -/

namespace Sys2Proof.Machine

/-! ### Key, protection, the address of a group (R227, R229) -/

theorem pageAllows_iff (pp : BitVec 2) :
    pageAllows false pp false = true ∧ (pageAllows false pp true = true ↔ pp ≠ 3) ∧
      (pageAllows true pp false = true ↔ pp ≠ 0) ∧ (pageAllows true pp true = true ↔ pp = 2) := by
  revert pp
  decide

theorem ptegAddr_origin (sdr1 : Word) (h : BitVec 19) {k : Nat} (hk : k < 7) :
    beBit (ptegAddr sdr1 h) k = beBit sdr1 k := by
  rw [ptegAddr, beBit, BitVec.getMsbD_append, if_neg (by omega), BitVec.getMsbD_append, if_neg (by omega),
    BitVec.getMsbD_append, if_neg (by omega), getMsbD_field _ hk (by decide), Nat.zero_add]

theorem ptegAddr_masked (sdr1 : Word) (h : BitVec 19) {k : Nat} (h7 : 7 ≤ k) (hk : k < 16) :
    beBit (ptegAddr sdr1 h) k = (beBit sdr1 k || (beBit sdr1 (k + 16) && h.getMsbD (k - 7))) := by
  have inField : k - 7 < 9 := by omega
  rw [ptegAddr, beBit, BitVec.getMsbD_append, if_neg (by omega), BitVec.getMsbD_append, if_neg (by omega),
    BitVec.getMsbD_append, if_pos h7, BitVec.getMsbD_or, BitVec.getMsbD_and, getMsbD_field _ inField (by decide),
    getMsbD_field _ inField (by decide), getMsbD_field _ inField (by decide),
    show 32 - (16 + 9) + (k - 7) = k by omega, show 32 - (0 + 9) + (k - 7) = k + 16 by omega, Nat.zero_add]
  rfl

theorem ptegAddr_hash (sdr1 : Word) (h : BitVec 19) {k : Nat} (h16 : 16 ≤ k) (hk : k < 26) :
    beBit (ptegAddr sdr1 h) k = h.getMsbD (k - 7) := by
  rw [ptegAddr, beBit, BitVec.getMsbD_append, if_neg (by omega), BitVec.getMsbD_append, if_pos h16,
    getMsbD_field _ (by omega) (by decide), show 19 - (0 + 10) + (k - (7 + 9)) = k - 7 by omega]
  rfl

theorem ptegAddr_low (sdr1 : Word) (h : BitVec 19) {k : Nat} (h26 : 26 ≤ k) : beBit (ptegAddr sdr1 h) k = false := by
  rw [ptegAddr, beBit, BitVec.getMsbD_append, if_pos h26]
  exact BitVec.getMsbD_zero

theorem ptegAddr_aligned (sdr1 : Word) (h : BitVec 19) : (ptegAddr sdr1 h).toNat % 8 = 0 := by
  rw [ptegAddr, toNat_append_eq]
  change (_ * 64 + 0) % 8 = 0
  omega

/-! ### What reading the table leaves (R228) -/

section
variable {s t u : State}

/-- `t` is `s` after accesses that no data access can tell: no byte changed, and the memory system is sound. -/
def State.readOnly (s t : State) : Prop := s.onlyMemorySystem t ∧ s.sameBytes t ∧ t.dataSound

theorem State.readOnly.trans (h : s.readOnly t) (h' : t.readOnly u) : s.readOnly u := by
  obtain ⟨only, same, -⟩ := h
  obtain ⟨only', same', sound⟩ := h'
  refine ⟨?_, fun a => (same' a).trans (same a), sound⟩
  unfold State.onlyMemorySystem at *
  rw [only', only]

theorem State.kindOf_congr (h : t.map = s.map) (b : BitVec 27) : t.kindOf b = s.kindOf b := by
  unfold State.kindOf
  rw [h]

theorem State.onlyStorage_of_onlyMemorySystem (h : s.onlyMemorySystem t) : s.onlyStorage t := by
  unfold State.onlyStorage
  rw [h]

theorem State.ram_of_onlyStorage (ram : ∀ b, s.kindOf b = .ram) (h : s.onlyStorage t) (b : BitVec 27) :
    t.kindOf b = .ram := by
  rw [← ram b]
  exact State.kindOf_congr (by rw [h]) b

theorem State.readOnly.ram (h : s.readOnly t) (ram : ∀ b, s.kindOf b = .ram) (b : BitVec 27) : t.kindOf b = .ram :=
  State.ram_of_onlyStorage ram (State.onlyStorage_of_onlyMemorySystem h.1) b

theorem State.tableWord_congr (h : s.sameBytes t) (a : Word) : t.tableWord a = s.tableWord a := by
  simp only [State.tableWord, h _]

/-- A word of the table is read as a data access sees it. -/
theorem State.readTable_spec (sound : s.dataSound) (ram : ∀ b, s.kindOf b = .ram) {pa : Word}
    (inside : lowBits pa 3 + 4 ≤ 8) : ∃ t, s.readTable pa = (s.tableWord pa, t) ∧ s.readOnly t := by
  obtain ⟨bytes, only, same, sound'⟩ := s.loadPhys_spec (u := .load) 0b0010 .read (span pa 4) (blockOf pa)
    (span_block inside) sound (.inl (ram _)) fun _ => rfl
  have word : (span pa 4).map s.dataByte =
      [s.dataByte pa, s.dataByte (pa + 1), s.dataByte (pa + 2), s.dataByte (pa + 3)] := by
    simp [span, List.range_succ]
  refine ⟨_, ?_, only, same, sound'⟩
  rw [State.readTable, bytes, word]
  exact congrArg (·, _) (wordOf_four _ _ _ _)

/-! ### The search (R228) -/

/-- The addresses of `n` entries of a group from `pa` on. -/
def pteAddrs (pa : Word) (n : Nat) : List Word := (List.range n).map fun i => pa + BitVec.ofNat 32 (8 * i)

theorem pteAddrs_succ (pa : Word) (n : Nat) : pteAddrs pa (n + 1) = pa :: pteAddrs (pa + 8) n := by
  have next (i : Nat) : pa + BitVec.ofNat 32 (8 * (i + 1)) = pa + 8 + BitVec.ofNat 32 (8 * i) := by
    rw [BitVec.add_assoc, Nat.mul_succ, Nat.add_comm, BitVec.ofNat_add]
    rfl
  simp only [pteAddrs, List.range_succ_eq_map, List.map_cons, List.map_map]
  exact congrArg₂ List.cons (BitVec.add_zero pa) (List.map_congr_left fun i _ => next i)

/-- A PTE that the search found at an address, its second word as it is read. -/
def State.pteAt (s : State) (a : Word) : PteHit := ⟨a, s.tableWord (a + 4)⟩

theorem lowBits_of_mod {pa : Word} (aligned : pa.toNat % 8 = 0) :
    lowBits pa 3 + 4 ≤ 8 ∧ lowBits (pa + 4) 3 + 4 ≤ 8 ∧ (pa + 8).toNat % 8 = 0 := by
  simp only [lowBits, BitVec.extractLsb'_toNat, Nat.shiftRight_zero, BitVec.toNat_add, BitVec.reduceToNat]
  omega

/-- The search of a group answers its first entry with the tag. -/
theorem searchGroup_spec (tag : Word) (n : Nat) : ∀ {pa : Word} {s : State}, s.dataSound →
    (∀ b, s.kindOf b = .ram) → pa.toNat % 8 = 0 →
    ∃ t, searchGroup tag n pa s = (((pteAddrs pa n).find? fun a => s.tableWord a == tag).map s.pteAt, t) ∧
      s.readOnly t := by
  induction n with
  | zero => exact fun sound _ _ => ⟨_, rfl, rfl, fun _ => rfl, sound⟩
  | succ n ih =>
    intro pa s sound ram aligned
    obtain ⟨inside, inside', aligned'⟩ := lowBits_of_mod aligned
    obtain ⟨t, read, quiet⟩ := State.readTable_spec sound ram inside
    have ⟨_, same, sound'⟩ := quiet
    have words := State.tableWord_congr same
    rw [searchGroup, read, pteAddrs_succ, List.find?_cons]
    dsimp only
    by_cases found : s.tableWord pa = tag
    · obtain ⟨t', read', quiet'⟩ := State.readTable_spec sound' (quiet.ram ram) inside'
      rw [if_pos found, read', words, beq_iff_eq.2 found]
      exact ⟨t', rfl, quiet.trans quiet'⟩
    · obtain ⟨t', search, quiet'⟩ := ih sound' (quiet.ram ram) aligned'
      have pteAt : t.pteAt = s.pteAt := funext fun a => by rw [State.pteAt, words]; rfl
      rw [if_neg found, search, pteAt, beq_eq_false_iff_ne.2 found]
      simp only [words]
      exact ⟨t', rfl, quiet.trans quiet'⟩

theorem hashPrimary_eq (vsid : BitVec 24) (ea : Word) :
    hashPrimary vsid ea = vsid.extractLsb' 0 19 ^^^ (0#3 ++ ea.extractLsb' 12 16) := by
  have widen : (pageIndex ea).setWidth 19 = 0#3 ++ ea.extractLsb' 12 16 := by
    apply BitVec.eq_of_toNat_eq
    have := (pageIndex ea).isLt
    rw [toNat_append_eq, BitVec.toNat_setWidth, Nat.mod_eq_of_lt (by omega)]
    exact (Nat.zero_add _).symm
  rw [hashPrimary, widen]

/-- The entry found is the one of the primary group, or else the one of the secondary. -/
theorem State.pteFor_eq (s : State) (vsid : BitVec 24) (ea : Word) :
    s.pteFor vsid ea =
      ((pteAddrs (ptegAddr s.mmu.sdr1 (hashPrimary vsid ea)) 8).find? fun a =>
        s.tableWord a == pteTag vsid false ea).or
      ((pteAddrs (ptegAddr s.mmu.sdr1 (~~~(hashPrimary vsid ea))) 8).find? fun a =>
        s.tableWord a == pteTag vsid true ea) := by
  simp only [State.pteFor, pteSlots, ← hashPrimary_eq, List.find?_append, List.find?_map, Option.map_or, Option.map_map,
    pteAddrs]
  rfl

/-- The table search answers the entry for the page, and changes no byte. -/
theorem State.tableSearch_spec (sound : s.dataSound) (ram : ∀ b, s.kindOf b = .ram) (vsid : BitVec 24) (ea : Word) :
    ∃ t, s.tableSearch vsid ea = ((s.pteFor vsid ea).map s.pteAt, t) ∧ s.readOnly t := by
  obtain ⟨t, primary, quiet⟩ := searchGroup_spec (pteTag vsid false ea) 8 sound ram
    (ptegAddr_aligned s.mmu.sdr1 (hashPrimary vsid ea))
  rw [State.tableSearch, State.pteFor_eq, primary]
  cases (pteAddrs (ptegAddr s.mmu.sdr1 (hashPrimary vsid ea)) 8).find? fun a =>
      s.tableWord a == pteTag vsid false ea with
  | some a => exact ⟨t, rfl, quiet⟩
  | none =>
    have ⟨_, same, sound'⟩ := quiet
    have words := State.tableWord_congr same
    obtain ⟨t', secondary, quiet'⟩ := searchGroup_spec (pteTag vsid true ea) 8 sound' (quiet.ram ram)
      (ptegAddr_aligned s.mmu.sdr1 (~~~(hashPrimary vsid ea)))
    have pteAt : t.pteAt = s.pteAt := funext fun a => by rw [State.pteAt, words]; rfl
    simp only [words, pteAt] at secondary
    exact ⟨t', secondary, quiet.trans quiet'⟩

end
end Sys2Proof.Machine
end

section
/-! SUPPORT. Proofs/PageTableWrites.lean: the bytes of a PTE that R and C are written to (O53). -/

namespace Sys2Proof.Machine

section
variable {s t : State}

/-! ### One byte of a PTE (R233) -/

theorem read_patch_one {m : List Host.Cell} (wf : Memory.wf m = true) (pa : Word) (v : Byte) (x : Word) :
    Memory.read (patchMemory m [(pa, v)]) x.toNat = if x = pa then v else Memory.read m x.toNat := by
  rw [patchMemory, patchMemory, Memory.read_write_wf wf]
  simp only [BitVec.toNat_inj]

theorem blockByte_patch_one (d : Vector Byte 32) {pa x : Word} (v : Byte) (h : blockOf x = blockOf pa) :
    blockByte (patchBlock d [(pa, v)]) (blockOffset x) = if x = pa then v else blockByte d (blockOffset x) := by
  by_cases hx : x = pa
  · rw [if_pos hx, hx]
    exact blockByte_patch_mem [(pa, v)] d (List.nodup_singleton _) (pa, v) List.mem_cons_self
  · rw [if_neg hx]
    refine blockByte_patch_other _ d _ fun p hp e => hx ?_
    obtain rfl := List.mem_singleton.1 hp
    exact eq_of_block_offset h e.symm

/-- A byte write past the cache, seen where the cache does not hold the byte's block. -/
theorem State.dataByte_storeMemory_one (wf : Memory.wf s.mem = true) (k : BusKind) (w : BitVec 3) {pa : Word}
    (ram : s.kindOf (blockOf pa) = .ram) (v : Byte) {x : Word}
    (outside : s.dcacheOn = true → blockOf x = blockOf pa → findD s.dcache (blockOf x) = none) :
    (s.storeMemory k w pa [(pa, v)]).dataByte x = if x = pa then v else s.dataByte x := by
  by_cases hit : s.dcacheOn = true ∧ ∃ l, findD s.dcache (blockOf x) = some l
  · obtain ⟨on, l, found⟩ := hit
    have other : x ≠ pa := by
      rintro rfl
      rw [outside on rfl] at found
      cases found
    rw [if_neg other, State.dataByte_storeMemory_hit on k w ram _ found]
  · have miss : s.dcacheOn = true → findD s.dcache (blockOf x) = none := fun on => by
      by_contra held
      exact hit ⟨on, Option.ne_none_iff_exists'.1 held⟩
    have before : s.dataByte x = Memory.read s.mem x.toNat := by
      cases on : s.dcacheOn with
      | false => exact State.dataByte_off on x
      | true => exact State.dataByte_miss (miss on)
    rw [State.dataByte_storeMemory_miss k w ram _ miss, read_patch_one wf, before]

/-- The single-beat read and the byte write that store a byte of a PTE in memory (R233). -/
def State.busWritePte (s : State) (pa : Word) (v : Byte) : State :=
  (s.logTenure .read pa 0b001 1).storeMemory .writeFlush 0b001 pa [(pa, v)]

theorem State.busWritePte_spec (wf : Memory.wf s.mem = true) (ram : ∀ b, s.kindOf b = .ram) (pa : Word) (v : Byte) :
    s.onlyMemorySystem (s.busWritePte pa v) ∧ (s.busWritePte pa v).dcacheOn = s.dcacheOn ∧
      ∀ x, (s.dcacheOn = true → blockOf x = blockOf pa → findD s.dcache (blockOf x) = none) →
        (s.busWritePte pa v).dataByte x = if x = pa then v else s.dataByte x := by
  have ram' : (s.logTenure .read pa 0b001 1).kindOf (blockOf pa) = .ram := ram _
  refine ⟨?_, ?_, fun x outside => ?_⟩
  · rw [State.busWritePte, State.storeMemory_ram ram']
    rfl
  · rw [State.busWritePte, State.storeMemory_ram ram']
    rfl
  · rw [← State.sameBytes_logTenure s .read pa 0b001 1 x]
    exact State.dataByte_storeMemory_one (s := s.logTenure .read pa 0b001 1) wf _ _ ram' v outside

/-- A copy of the block in the data cache gets the byte too. -/
theorem State.writePteByte_cases (s : State) (pa : Word) (v : Byte) :
    (∃ l, s.dcacheOn = true ∧ findD s.dcache (blockOf pa) = some l ∧
      s.writePteByte pa v = (s.busWritePte pa v).putD { l with data := patchBlock l.data [(pa, v)] }) ∨
    ((s.dcacheOn = true → findD s.dcache (blockOf pa) = none) ∧ s.writePteByte pa v = s.busWritePte pa v) := by
  cases on : s.dcacheOn with
  | false => exact .inr ⟨nofun, by simp [State.writePteByte, on, State.busWritePte]⟩
  | true =>
    cases held : findD s.dcache (blockOf pa) with
    | none => exact .inr ⟨fun _ => rfl, by simp [State.writePteByte, on, held, State.busWritePte]⟩
    | some l => exact .inl ⟨l, rfl, rfl, by simp [State.writePteByte, on, held, State.busWritePte]⟩

/-- A write of one byte of a PTE: that byte is seen, every other byte stays. -/
theorem State.writePteByte_spec (wf : Memory.wf s.mem = true) (ram : ∀ b, s.kindOf b = .ram) (pa : Word) (v : Byte) :
    s.onlyMemorySystem (s.writePteByte pa v) ∧
      ∀ x, (s.writePteByte pa v).dataByte x = if x = pa then v else s.dataByte x := by
  obtain ⟨only, cache, bytes⟩ := State.busWritePte_spec wf ram pa v
  obtain ⟨l, on, held, eq⟩ | ⟨missed, eq⟩ := s.writePteByte_cases pa v
  · obtain ⟨-, block⟩ := findD_some held
    rw [eq]
    refine ⟨?_, fun x => ?_⟩
    · unfold State.onlyMemorySystem at *
      rw [State.putD, only]
    · rw [State.dataByte_putD _ _ (cache.trans on), block]
      split
      · rename_i same
        rw [blockByte_patch_one l.data v same, State.dataByte_hit on (same ▸ held)]
      · rename_i other
        exact bytes x fun _ same => absurd same other
  · rw [eq]
    exact ⟨only, fun x => bytes x fun on same => same ▸ missed on⟩

/-! ### R and C (R231, R233) -/

theorem word_byte2 (b0 b1 b2 b3 : Byte) : (b0 ++ b1 ++ b2 ++ b3 : Word).extractLsb' 8 8 = b2 := by
  have := b2.isLt
  have := b3.isLt
  apply BitVec.eq_of_toNat_eq
  simp only [BitVec.extractLsb'_toNat, Nat.shiftRight_eq_div_pow, toNat_append_eq]
  omega

theorem word_byte3 (b0 b1 b2 b3 : Byte) : (b0 ++ b1 ++ b2 ++ b3 : Word).extractLsb' 0 8 = b3 := by
  have := b3.isLt
  apply BitVec.eq_of_toNat_eq
  simp only [BitVec.extractLsb'_toNat, Nat.shiftRight_zero, toNat_append_eq]
  omega

theorem State.tableWord_byte6 (s : State) (a : Word) : (s.tableWord (a + 4)).extractLsb' 8 8 = s.dataByte (a + 6) := by
  have place : a + 4 + 2 = a + 6 := BitVec.add_assoc a 4 2
  rw [State.tableWord, word_byte2, place]

theorem State.tableWord_byte7 (s : State) (a : Word) : (s.tableWord (a + 4)).extractLsb' 0 8 = s.dataByte (a + 7) := by
  have place : a + 4 + 3 = a + 7 := BitVec.add_assoc a 4 3
  rw [State.tableWord, word_byte3, place]

/-- Setting bits that are set changes nothing. -/
theorem or_eq_self {n : Nat} {d m : BitVec n} (h : ∀ k < n, m.getMsbD k = true → d.getMsbD k = true) : d ||| m = d := by
  rw [eq_iff_getMsbD]
  intro k hk
  rw [BitVec.getMsbD_or]
  cases hm : m.getMsbD k with
  | false => exact Bool.or_false _
  | true => rw [h k hk hm]; rfl

theorem or_one_eq_self {d : Byte} (h : d.getMsbD 7 = true) : d ||| 1 = d :=
  or_eq_self fun k hk hm => by
    have only : ∀ k < 8, (1 : Byte).getMsbD k = true → k = 7 := by decide
    rwa [only k hk hm]

theorem or_eighty_eq_self {d : Byte} (h : d.getMsbD 0 = true) : d ||| 0x80 = d :=
  or_eq_self fun k hk hm => by
    have only : ∀ k < 8, (0x80 : Byte).getMsbD k = true → k = 0 := by decide
    rwa [only k hk hm]

/-- The bytes after R was set in the PTE at `a`, and C too with `c`. -/
def State.markedByte (s : State) (a : Word) (c : Bool) (x : Word) : Byte :=
  if x = a + 6 then s.dataByte x ||| 1 else if x = a + 7 ∧ c = true then s.dataByte x ||| 0x80 else s.dataByte x

theorem State.markedByte_false (s : State) (a x : Word) :
    s.markedByte a false x = if x = a + 6 then s.dataByte x ||| 1 else s.dataByte x := by
  simp [State.markedByte]

theorem add_seven_ne_add_six (a : Word) : a + 7 ≠ a + 6 := by
  intro h
  exact absurd (add_left_cancel h) (by decide)

/-- Setting C in a PTE with R set. -/
theorem State.markedByte_true (s : State) (a x : Word) :
    s.markedByte a true x = if x = a + 7 then s.dataByte (a + 7) ||| 0x80 else s.markedByte a false x := by
  by_cases h : x = a + 7
  · rw [if_pos h, h, State.markedByte, if_neg (add_seven_ne_add_six a), if_pos ⟨rfl, rfl⟩]
  · rw [if_neg h, State.markedByte_false, State.markedByte]
    simp only [h, false_and, if_false]

/-- In a PTE whose C is set there is nothing to set. -/
theorem State.markedByte_of_changed {a : Word} (changed : beBit (s.tableWord (a + 4)) 24 = true) (c : Bool) (x : Word) :
    s.markedByte a c x = s.markedByte a false x := by
  cases c with
  | false => rfl
  | true =>
    have bit : (s.dataByte (a + 7)).getMsbD 0 = true := by
      rw [← State.tableWord_byte7, getMsbD_field _ (by decide) (by decide)]
      exact changed
    rw [State.markedByte_true, or_eighty_eq_self bit, State.markedByte_false]
    split
    · rename_i h
      rw [h, if_neg (add_seven_ne_add_six a)]
    · rfl

/-- Setting R in the PTE the search found. -/
theorem State.setReferenced_spec (wf : Memory.wf s.mem = true) (ram : ∀ b, s.kindOf b = .ram) {p : PteHit}
    (word : p.word1 = s.tableWord (p.addr + 4)) : s.onlyMemorySystem (s.setReferenced p) ∧
      ∀ x, (s.setReferenced p).dataByte x = s.markedByte p.addr false x := by
  have byte : p.word1.extractLsb' 8 8 = s.dataByte (p.addr + 6) := by rw [word, State.tableWord_byte6]
  simp only [State.markedByte_false]
  unfold State.setReferenced
  split
  · rename_i set
    have bit : (s.dataByte (p.addr + 6)).getMsbD 7 = true := by
      rw [← byte, getMsbD_field _ (by decide) (by decide)]
      exact set
    refine ⟨rfl, fun x => ?_⟩
    split
    · rename_i h
      rw [h, or_one_eq_self bit]
    · rfl
  · obtain ⟨only, bytes⟩ := State.writePteByte_spec wf ram (p.addr + 6) (p.word1.extractLsb' 8 8 ||| 0x01)
    refine ⟨only, fun x => ?_⟩
    rw [bytes, byte]
    split
    · rename_i h
      rw [h]
    · rfl

/-- Setting C in that PTE, after R was set in it. -/
theorem State.setChanged_spec (wf : Memory.wf t.mem = true) (ram : ∀ b, t.kindOf b = .ram) {p : PteHit}
    (word : p.word1 = s.tableWord (p.addr + 4)) (bytes : ∀ x, t.dataByte x = s.markedByte p.addr false x) :
    t.onlyMemorySystem (t.setChanged p) ∧ ∀ x, (t.setChanged p).dataByte x = s.markedByte p.addr true x := by
  obtain ⟨only, written⟩ := State.writePteByte_spec wf ram (p.addr + 7) (p.word1.extractLsb' 0 8 ||| 0x80)
  refine ⟨only, fun x => ?_⟩
  rw [State.setChanged, written, State.markedByte_true, bytes, word, State.tableWord_byte7]

end
end Sys2Proof.Machine
end

section
/-! SUPPORT. Proofs/TlbEntries.lean: using and loading an entry of a TLB (O53). -/

namespace Sys2Proof.Machine

section
variable {s t : State} {u : Use} {vsid : BitVec 24} {ea : Word} {e : TlbEntry}

/-! ### Entries (R240, R241) -/

/-- The entry is the one of a page: its set, its tag, its VSID. -/
def TlbEntry.isFor (e : TlbEntry) (vsid : BitVec 24) (ea : Word) : Prop :=
  e.index = tlbIndex ea ∧ e.tag = tlbTag ea ∧ e.vsid = vsid

theorem tlbFind_isFor {l : List TlbEntry} (h : tlbFind l vsid ea = some e) : e.isFor vsid ea := by
  have found := List.find?_some h
  simp only [Bool.and_eq_true, beq_iff_eq] at found
  exact ⟨found.1.1, found.1.2, found.2⟩

theorem entryOf_isFor (vsid : BitVec 24) (ea : Word) (p : PteHit) : (entryOf vsid ea p).isFor vsid ea := ⟨rfl, rfl, rfl⟩

/-- No entry of a TLB that has none for a page is a copy of the page's. -/
theorem sameEntry_of_miss {l : List TlbEntry} (miss : tlbFind l vsid ea = none) (h : e.isFor vsid ea) {x : TlbEntry}
    (hx : x ∈ l) : sameEntry x e = false := by
  obtain ⟨index, tag, segment⟩ := h
  have := List.find?_eq_none.1 miss x hx
  rw [sameEntry, index, tag, segment]
  simpa using this

theorem sameEntry_of_index {x v : TlbEntry} (h : x.index ≠ v.index) : sameEntry x v = false := by
  simp [sameEntry, h]

/-! ### Using and replacing (R242) -/

theorem mem_tlbUse {l : List TlbEntry} {x : TlbEntry} (hx : x ∈ l) (other : sameEntry x e = false) : x ∈ tlbUse l e :=
  List.mem_cons_of_mem _ (List.mem_filter.2 ⟨hx, by rw [other]; rfl⟩)

/-- An entry that was just used is the one found. -/
theorem tlbFind_tlbUse (h : e.isFor vsid ea) (l : List TlbEntry) : tlbFind (tlbUse l e) vsid ea = some e := by
  obtain ⟨index, tag, segment⟩ := h
  simp [tlbFind, tlbUse, index, tag, segment]

theorem tlbFind_tlbReplace (h : e.isFor vsid ea) (l : List TlbEntry) (v : Option TlbEntry) :
    tlbFind (tlbReplace l v e) vsid ea = some e := tlbFind_tlbUse h _

/-! ### The TLB of a use -/

theorem State.setTlb_eq (s : State) (u : Use) (l : List TlbEntry) : s.setTlb u l =
    { s with itlb := if u = .fetch then l else s.itlb, dtlb := if u = .fetch then s.dtlb else l } := by
  unfold State.setTlb
  split <;> rfl

theorem State.tlb_setTlb (s : State) (u : Use) (l : List TlbEntry) : (s.setTlb u l).tlb u = l := by
  by_cases h : u = .fetch <;> simp [State.tlb, State.setTlb, h]

/-- `t` differs from `s` in the TLBs and the count of free values at most. -/
def State.onlyTlbs (s t : State) : Prop := t = { s with itlb := t.itlb, dtlb := t.dtlb, fresh := t.fresh }

theorem State.onlyTlbs_setTlb (s : State) (u : Use) (l : List TlbEntry) : s.onlyTlbs (s.setTlb u l) := by
  rw [State.setTlb_eq]
  rfl

theorem State.fresh_setTlb (s : State) (u : Use) (l : List TlbEntry) : (s.setTlb u l).fresh = s.fresh := by
  rw [State.setTlb_eq]

theorem State.onlyTlbs.onlyStorage (h : s.onlyTlbs t) : s.onlyStorage t := by
  unfold State.onlyStorage
  rw [h]

theorem State.onlyTlbs.tea (h : s.onlyTlbs t) : t.tea = s.tea := by rw [h]

theorem State.onlyTlbs.mem (h : s.onlyTlbs t) : t.mem = s.mem := by rw [h]

theorem State.onlyTlbs.sameBytes (h : s.onlyTlbs t) : s.sameBytes t := fun x => by
  rw [h]
  rfl

theorem State.onlyTlbs.dataSound (h : s.onlyTlbs t) (sound : s.dataSound) : t.dataSound := by
  rw [h]
  exact sound

theorem State.onlyTlbs.pteFor (h : s.onlyTlbs t) : t.pteFor vsid ea = s.pteFor vsid ea := by
  rw [h]
  rfl

/-- The set of the entry has no invalid way (R240). -/
def State.setFull (s : State) (u : Use) (i : BitVec 6) : Bool := decide (2 ≤ (tlbSet (s.tlb u) i).length)

/-- Loading the entry of a page that had none: it is found, and of the others one of a full set may leave. -/
theorem State.loadTlb_spec (miss : tlbFind (s.tlb u) vsid ea = none) (h : e.isFor vsid ea) :
    s.onlyTlbs (s.loadTlb u e) ∧ tlbFind ((s.loadTlb u e).tlb u) vsid ea = some e ∧
      (s.loadTlb u e).fresh = (if s.setFull u e.index then s.fresh + 1 else s.fresh) ∧
      ∀ x ∈ s.tlb u, s.setFull u e.index = false ∨ x.index ≠ e.index → x ∈ (s.loadTlb u e).tlb u := by
  obtain ⟨room, eq⟩ | ⟨full, v, victim, eq⟩ := s.loadTlb_cases u e
  · have notFull : s.setFull u e.index = false := decide_eq_false (by omega)
    rw [eq, notFull, State.tlb_setTlb]
    exact ⟨s.onlyTlbs_setTlb _ _, tlbFind_tlbReplace h _ _, s.fresh_setTlb _ _,
      fun x hx _ => mem_tlbUse hx (sameEntry_of_miss miss h hx)⟩
  · have isFull : s.setFull u e.index = true := decide_eq_true full
    have inSet {w : TlbEntry} (hw : v = some w) : w.index = e.index := by
      have member : w ∈ tlbSet (s.tlb u) e.index := by
        rcases victim with rfl | rfl
        · exact List.mem_of_getLast? hw
        · exact List.mem_of_head? hw
      simpa using (List.mem_filter.1 member).2
    rw [eq, isFull, State.tlb_setTlb]
    refine ⟨?_, tlbFind_tlbReplace h _ _, State.fresh_setTlb _ _ _, fun x hx keep => ?_⟩
    · rw [State.setTlb_eq]
      rfl
    · have other := keep.resolve_left nofun
      refine mem_tlbUse ?_ (sameEntry_of_miss miss h hx)
      cases hv : v with
      | none => exact hx
      | some w => exact List.mem_filter.2 ⟨hx, by rw [sameEntry_of_index (inSet hv ▸ other)]; rfl⟩

end
end Sys2Proof.Machine
end

section
/-! SUPPORT. Proofs/PageTranslation.lean: real addressing, and the translation through a page on a TLB miss and on a TLB
hit (O53). -/

namespace Sys2Proof.Machine

section
variable {s t : State} {u : Use} {vsid : BitVec 24} {sr ea a : Word} {e : TlbEntry}

/-! ### Real addressing (R202) -/

theorem State.translate_real (off : s.translationOn u = false)
    (single : (batHits (s.batArray u) s.msrPR ea).length ≤ 1) :
    s.translate u ea = (s.deliver u ea ea (realWimg u), s) := by
  rw [State.translate, if_neg (by omega), off]
  rfl

theorem State.translate_fetch_real (off : s.msrIR = false) (single : (batHits s.mmu.ibat s.msrPR ea).length ≤ 1) :
    s.translate .fetch ea = (.mapped ea 0b0001, s) := State.translate_real (u := .fetch) off single

theorem State.translate_data_real (off : s.msrDR = false) (single : (batHits s.mmu.dbat s.msrPR ea).length ≤ 1)
    (hu : u ∈ [Use.load, Use.store]) (quiet : s.dabrMatch u ea = false) :
    s.translate u ea = (.mapped ea 0b0011, s) := by
  have delivered : s.deliver u ea ea 0b0011 = .mapped ea 0b0011 := by
    have attr : s.attrFault u 0b0011 = none := by fin_cases hu <;> rfl
    rw [State.deliver, State.lateFault, attr, quiet]
    rfl
  rw [← delivered]
  fin_cases hu
  · exact State.translate_real (u := .load) off single
  · exact State.translate_real (u := .store) off single

/-! ### From the entry to the answer (R229, R237) -/

/-- What the page of an entry answers. -/
def State.entryAnswer (s : State) (u : Use) (sr ea : Word) (e : TlbEntry) : Xlate :=
  s.pageAnswer u sr ea e.rpn e.wimg e.pp

/-- The access is a store that may be done to a page whose C is not set. -/
def State.needsChanged (s : State) (u : Use) (sr ea : Word) (e : TlbEntry) : Bool :=
  u.isStore && (s.entryAnswer u sr ea e).isMapped && !e.changed

theorem State.translatePage_fault (h : s.findEntry u (srVsid sr) ea = (none, t)) :
    s.translatePage u sr ea = (.fail .pageFault, t) := by
  rw [State.translatePage]
  dsimp only
  rw [h]

/-- With an entry the answer is its page's, but for a store that has to set C first. -/
theorem State.translatePage_entry {p : Option PteHit} (h : s.findEntry u (srVsid sr) ea = (some (e, p), t)) :
    s.translatePage u sr ea =
      if s.needsChanged u sr ea e then
        (if (t.markChanged u ea e p).1 then s.entryAnswer u sr ea e else .fail .pageFault, (t.markChanged u ea e p).2)
      else (s.entryAnswer u sr ea e, t) := by
  have key : s.segmentKey sr = if beBit s.msr 17 then beBit sr 2 else beBit sr 1 := rfl
  have guarded : attrG e.wimg = e.wimg.getMsbD 3 := rfl
  unfold State.translatePage State.needsChanged State.entryAnswer State.pageAnswer
  dsimp only
  rw [h, ← key]
  dsimp only
  by_cases allowed : pageAllows (s.segmentKey sr) e.pp u.isStore = false
  · simp [allowed, Xlate.isMapped]
  rw [if_neg allowed, if_neg (by simpa using allowed), guarded]
  by_cases noExecute : u = .fetch ∧ e.wimg.getMsbD 3 = true
  · simp [noExecute, Xlate.isMapped]
  rw [if_neg noExecute, if_neg noExecute]
  cases s.lateFault u ea e.wimg with
  | some f => simp [Xlate.isMapped]
  | none => simp [Xlate.isMapped]

/-! ### R and C of the page's entry (R231, R233) -/

/-- `t` is `s` after R was set in the PTE at `a`, and C with `c`: no other byte has changed. -/
def State.pteMarked (s t : State) (a : Word) (c : Bool) : Prop :=
  s.onlyStorage t ∧ t.tea = s.tea ∧ ∀ x, t.dataByte x = s.markedByte a c x

theorem State.pteMarked.ram (h : s.pteMarked t a c) (ram : ∀ b, s.kindOf b = .ram) (b : BitVec 27) :
    t.kindOf b = .ram := State.ram_of_onlyStorage ram h.1 b

theorem State.pteMarked.onlyTlbs {v : State} {c : Bool} (h : s.pteMarked t a c) (h' : t.onlyTlbs v) :
    s.pteMarked v a c := by
  obtain ⟨only, tea, bytes⟩ := h
  exact ⟨State.onlyStorage_trans only h'.onlyStorage, h'.tea.trans tea, fun x => (h'.sameBytes x).trans (bytes x)⟩

/-- After the search R is set in the PTE it found; the TLBs stay. -/
theorem State.pteMarked_setReferenced (quiet : s.readOnly t) (ram : ∀ b, s.kindOf b = .ram) (a : Word) :
    s.pteMarked (t.setReferenced (s.pteAt a)) a false ∧ Memory.wf (t.setReferenced (s.pteAt a)).mem = true ∧
      s.onlyMemorySystem (t.setReferenced (s.pteAt a)) := by
  have ⟨only, same, sound⟩ := quiet
  obtain ⟨only', bytes⟩ := State.setReferenced_spec (p := s.pteAt a) sound.1 (quiet.ram ram)
    (State.tableWord_congr same (a + 4)).symm
  have whole : s.onlyMemorySystem (t.setReferenced (s.pteAt a)) := by
    unfold State.onlyMemorySystem at *
    rw [only', only]
  refine ⟨⟨State.onlyStorage_of_onlyMemorySystem whole, ?_, fun x => ?_⟩, ?_, whole⟩
  · rw [whole]
  · rw [bytes]
    simp only [State.markedByte, same x]
    rfl
  · exact (t.storageStep_setReferenced _).2 sound.1

/-- Setting C in the entry and, after R, in its PTE. -/
theorem State.markChanged_spec (marked : s.pteMarked t a false) (wf : Memory.wf t.mem = true)
    (ram : ∀ b, s.kindOf b = .ram) (h : e.isFor vsid ea) :
    ∃ v, t.markChanged u ea e (some (s.pteAt a)) = (true, v) ∧ s.pteMarked v a true ∧ v.fresh = t.fresh ∧
      tlbFind (v.tlb u) vsid ea = some { e with changed := true } ∧
      ∀ x ∈ t.tlb u, sameEntry x e = false → x ∈ v.tlb u := by
  have ⟨only, tea, bytes⟩ := marked
  obtain ⟨only', bytes'⟩ := State.setChanged_spec (p := s.pteAt a) wf (marked.ram ram) rfl bytes
  have changed : s.pteMarked (t.setChanged (s.pteAt a)) a true := by
    refine ⟨State.onlyStorage_trans only (State.onlyStorage_of_onlyMemorySystem only'), ?_, bytes'⟩
    rw [only']
    exact tea
  have tlb : (t.setChanged (s.pteAt a)).tlb u = t.tlb u := by
    rw [only']
    rfl
  refine ⟨_, rfl, changed.onlyTlbs (State.onlyTlbs_setTlb _ _ _), ?_, ?_, fun x hx other => ?_⟩
  · rw [State.fresh_setTlb, only']
  · rw [State.tlb_setTlb]
    exact tlbFind_tlbUse (e := { e with changed := true }) h _
  · rw [State.tlb_setTlb, tlb]
    exact mem_tlbUse hx other

/-! ### A TLB miss (R228, R242) -/

/-- `t` is `s` after a search that found nothing. -/
def State.unmarked (s t : State) : Prop := s.onlyStorage t ∧ t.fresh = s.fresh ∧ t.tea = s.tea ∧ s.sameBytes t

theorem State.readOnly.unmarked (h : s.readOnly t) : s.unmarked t := by
  obtain ⟨only, same, -⟩ := h
  exact ⟨State.onlyStorage_of_onlyMemorySystem only, by rw [only], by rw [only], same⟩

theorem State.translatePage_miss_fault (sound : s.dataSound) (ram : ∀ b, s.kindOf b = .ram)
    (miss : tlbFind (s.tlb u) (srVsid sr) ea = none) (absent : s.pteFor (srVsid sr) ea = none) :
    ∃ t, s.translatePage u sr ea = (.fail .pageFault, t) ∧ s.unmarked t := by
  obtain ⟨t, search, quiet⟩ := State.tableSearch_spec sound ram (srVsid sr) ea
  rw [absent] at search
  refine ⟨t, State.translatePage_fault ?_, quiet.unmarked⟩
  rw [State.findEntry, miss, search]
  rfl

/-- On a miss the entry of the PTE is loaded, R is set, and C for a store that is done. -/
theorem State.translatePage_miss (sound : s.dataSound) (ram : ∀ b, s.kindOf b = .ram)
    (miss : tlbFind (s.tlb u) (srVsid sr) ea = none) (found : s.pteFor (srVsid sr) ea = some a)
    (entry : entryOf (srVsid sr) ea (s.pteAt a) = e) :
    let c := u.isStore && (s.entryAnswer u sr ea e).isMapped
    ∃ t, s.translatePage u sr ea = (s.entryAnswer u sr ea e, t) ∧ s.pteMarked t a c ∧
      t.fresh = (if s.setFull u e.index then s.fresh + 1 else s.fresh) ∧
      (∀ x ∈ s.tlb u, s.setFull u e.index = false ∨ x.index ≠ e.index → x ∈ t.tlb u) ∧
      tlbFind (t.tlb u) (srVsid sr) ea = some { e with changed := e.changed || c } := by
  intro c
  have page : e.isFor (srVsid sr) ea := entry ▸ entryOf_isFor _ _ _
  have bit : e.changed = beBit (s.tableWord (a + 4)) 24 := by rw [← entry]; rfl
  obtain ⟨t1, search, quiet⟩ := State.tableSearch_spec sound ram (srVsid sr) ea
  obtain ⟨marked, wf, only⟩ := State.pteMarked_setReferenced quiet ram a
  have run : s.findEntry u (srVsid sr) ea =
      (some (e, some (s.pteAt a)), (t1.setReferenced (s.pteAt a)).loadTlb u e) := by
    rw [State.findEntry, miss, search, found, ← entry]
    rfl
  generalize t1.setReferenced (s.pteAt a) = t2 at marked wf only run
  have tlb : t2.tlb u = s.tlb u := by rw [only]; rfl
  have fresh : t2.fresh = s.fresh := by rw [only]
  obtain ⟨tlbs, loaded, drawn, kept⟩ := State.loadTlb_spec (tlb.symm ▸ miss) page
  rw [State.setFull, tlb, fresh] at drawn
  rw [State.setFull, tlb] at kept
  rw [State.translatePage_entry run]
  by_cases needs : s.needsChanged u sr ea e = true
  · obtain ⟨v, set, marked', fresh', found', kept'⟩ :=
      State.markChanged_spec (u := u) (marked.onlyTlbs tlbs) (tlbs.mem.symm ▸ wf) ram page
    have store : c = true := (Bool.and_eq_true_iff.1 needs).1
    rw [if_pos needs, set, store, Bool.or_true]
    exact ⟨v, rfl, marked', fresh'.trans drawn,
      fun x hx keep => kept' x (kept x hx keep) (sameEntry_of_miss miss page hx), found'⟩
  · rw [if_neg needs]
    have settled : e.changed = true ∨ c = false := by
      have : (c && !e.changed) = false := Bool.eq_false_iff.2 needs
      revert this
      cases e.changed <;> cases c <;> simp
    refine ⟨_, rfl, ?_, drawn, kept, ?_⟩
    · obtain ⟨storage, tea, bytes⟩ := marked.onlyTlbs tlbs
      refine ⟨storage, tea, fun x => (bytes x).trans ?_⟩
      rcases settled with set | no
      · exact (State.markedByte_of_changed (bit ▸ set) c x).symm
      · rw [no]
    · have same : (e.changed || c) = e.changed := by rcases settled with h | h <;> simp [h]
      rw [same]
      exact loaded

/-! ### A TLB hit (R241) -/

theorem State.findEntry_hit (hit : tlbFind (s.tlb u) vsid ea = some e) :
    s.findEntry u vsid ea = (some (e, none), s.setTlb u (tlbUse (s.tlb u) e)) := by
  rw [State.findEntry, hit]

theorem State.translatePage_hit (hit : tlbFind (s.tlb u) (srVsid sr) ea = some e)
    (no : s.needsChanged u sr ea e = false) :
    ∃ t, s.translatePage u sr ea = (s.entryAnswer u sr ea e, t) ∧ t = { s with itlb := t.itlb, dtlb := t.dtlb } ∧
      tlbFind (t.tlb u) (srVsid sr) ea = some e := by
  rw [State.translatePage_entry (State.findEntry_hit hit), no]
  refine ⟨_, rfl, ?_, ?_⟩
  · rw [State.setTlb_eq]
  · rw [State.tlb_setTlb]
    exact tlbFind_tlbUse (tlbFind_isFor hit) _

/-- A store to a page whose entry has C = 0 searches the table again (R237 step 6). -/
theorem State.markChanged_found {p : PteHit} (h : s.tableSearch e.vsid ea = (some p, t)) :
    s.markChanged u ea e none = (t.setReferenced p).markChanged u ea e (some p) := by
  simp only [State.markChanged, h]

theorem State.markChanged_absent (h : s.tableSearch e.vsid ea = (none, t)) :
    s.markChanged u ea e none = (false, t) := by
  simp only [State.markChanged, h]

theorem State.translatePage_hit_fault (sound : s.dataSound) (ram : ∀ b, s.kindOf b = .ram)
    (hit : tlbFind (s.tlb u) (srVsid sr) ea = some e) (needs : s.needsChanged u sr ea e = true)
    (absent : s.pteFor (srVsid sr) ea = none) :
    ∃ t, s.translatePage u sr ea = (.fail .pageFault, t) ∧ s.unmarked t := by
  have tlbs := s.onlyTlbs_setTlb u (tlbUse (s.tlb u) e)
  obtain ⟨-, -, segment⟩ := tlbFind_isFor hit
  obtain ⟨t, search, quiet⟩ := State.tableSearch_spec (tlbs.dataSound sound)
    (State.ram_of_onlyStorage ram tlbs.onlyStorage) (srVsid sr) ea
  rw [tlbs.pteFor, absent, ← segment] at search
  obtain ⟨only, fresh, tea, same⟩ := quiet.unmarked
  rw [State.translatePage_entry (State.findEntry_hit hit), if_pos needs, State.markChanged_absent search]
  exact ⟨t, rfl, State.onlyStorage_trans tlbs.onlyStorage only, fresh.trans (State.fresh_setTlb _ _ _),
    tea.trans tlbs.tea, fun x => (same x).trans (tlbs.sameBytes x)⟩

theorem State.translatePage_hit_store (sound : s.dataSound) (ram : ∀ b, s.kindOf b = .ram)
    (hit : tlbFind (s.tlb u) (srVsid sr) ea = some e) (needs : s.needsChanged u sr ea e = true)
    (found : s.pteFor (srVsid sr) ea = some a) :
    ∃ t, s.translatePage u sr ea = (s.entryAnswer u sr ea e, t) ∧ s.pteMarked t a true ∧ t.fresh = s.fresh ∧
      tlbFind (t.tlb u) (srVsid sr) ea = some { e with changed := true } := by
  have tlbs := s.onlyTlbs_setTlb u (tlbUse (s.tlb u) e)
  have page := tlbFind_isFor hit
  have ⟨_, _, segment⟩ := page
  have ram' := State.ram_of_onlyStorage ram tlbs.onlyStorage
  obtain ⟨t, search, quiet⟩ := State.tableSearch_spec (tlbs.dataSound sound) ram' (srVsid sr) ea
  rw [tlbs.pteFor, found, ← segment] at search
  obtain ⟨marked, wf, only⟩ := State.pteMarked_setReferenced quiet ram' a
  obtain ⟨v, set, ⟨only', tea, bytes⟩, fresh, now, -⟩ := State.markChanged_spec (u := u) marked wf ram' page
  rw [State.translatePage_entry (State.findEntry_hit hit), if_pos needs,
    (State.markChanged_found search).trans set]
  refine ⟨v, rfl, ⟨State.onlyStorage_trans tlbs.onlyStorage only', tea.trans tlbs.tea, fun x => (bytes x).trans ?_⟩,
    ?_, now⟩
  · simp only [State.markedByte, tlbs.sameBytes x]
  · rw [fresh, only]
    exact State.fresh_setTlb _ _ _

end

/-- Settles O53: the search answers the entry, and each of its outcomes, on a TLB miss and on a TLB hit, decides the
translation. -/
theorem pageTranslation : Obligations.PageTranslation := by
  refine ⟨fun s ea => ⟨State.translate_fetch_real, fun off single u hu => State.translate_data_real off single hu⟩,
    fun _ _ => rfl, pageAllows_iff,
    fun sdr1 h => ⟨fun _ => ptegAddr_origin sdr1 h, fun _ => ptegAddr_masked sdr1 h, fun _ => ptegAddr_hash sdr1 h,
      fun _ => ptegAddr_low sdr1 h⟩, ?_⟩
  intro s u sr ea sound ram vsid word answer full marked unmarked
  refine ⟨?_, fun miss => ⟨State.translatePage_miss_fault sound ram miss, fun a found =>
    State.translatePage_miss sound ram miss found rfl⟩, fun e hit => ?_⟩
  · obtain ⟨t, search, only, same, -⟩ := State.tableSearch_spec sound ram vsid ea
    exact ⟨t, search, only, same⟩
  · intro answered needsC
    exact ⟨State.translatePage_hit hit, State.translatePage_hit_fault sound ram hit,
      fun a => State.translatePage_hit_store sound ram hit⟩

end Sys2Proof.Machine
end

section
/-! SUPPORT. Proofs/RoundTrip.lean: decoding is the inverse of encoding (O1, O2). -/

namespace Sys2Proof

/-! ### Which table a word goes to (R281 to R284, R296) -/

section
variable {w : Word}

theorem decode_primary19 (h : primary w = 19) : decode w = decode19 w := by
  unfold decode
  rw [h]
  rfl

theorem decode_primary31 (h : primary w = 31) : decode w = decode31 w := by
  unfold decode
  rw [h]
  rfl

theorem decode_primary59 (h : primary w = 59) : decode w = decode59 w := by
  unfold decode
  rw [h]
  rfl

theorem decode_primary63 (h : primary w = 63) : decode w = decode63 w := by
  unfold decode
  rw [h]
  rfl

/-- The extended opcodes, bits 22:30, that select an XO form (R272, R282). -/
def xoFormOpcodes : List Nat := [8, 10, 11, 40, 75, 104, 136, 138, 200, 202, 232, 234, 235, 266, 459, 491]

/-- The extended opcodes, bits 26:30, that select an A form of primary 63 (R273, R284). -/
def aFormOpcodes : List Nat := [18, 20, 21, 23, 25, 26, 28, 29, 30, 31]

/-- A word of primary 31 that is of no XO form goes by the ten bits 21:30. -/
theorem decode31_of_notXo (h : xo9 w ∉ xoFormOpcodes) : decode31 w = decode31X w := by
  unfold decode31
  split
  case h_17 => rfl
  all_goals
    rename_i selected
    exact absurd (selected ▸ by decide) h

/-- A word of primary 63 that is of no A form goes by the ten bits 21:30. -/
theorem decode63_of_notA (h : xo5 w ∉ aFormOpcodes) : decode63 w = decode63X w := by
  unfold decode63
  split
  case h_11 => rfl
  all_goals
    rename_i selected
    exact absurd (selected ▸ by decide) h

end

section
variable {a b c : BitVec 5} {oe r : Bool}

theorem decode_encX19 {xo : BitVec 10} : decode (encX 19 a b c xo r) = decode19 (encX 19 a b c xo r) :=
  decode_primary19 (primary_encX ..)

theorem decode_encX31 {xo : BitVec 10} (h : xo.toNat % 512 ∉ xoFormOpcodes) :
    decode (encX 31 a b c xo r) = decode31X (encX 31 a b c xo r) :=
  (decode_primary31 (primary_encX ..)).trans (decode31_of_notXo (xo9_encX .. ▸ h))

theorem decode_encXFX {spr xo : BitVec 10} (h : xo.toNat % 512 ∉ xoFormOpcodes) :
    decode (encXFX 31 a spr xo r) = decode31X (encXFX 31 a spr xo r) :=
  (decode_primary31 (primary_encXFX ..)).trans (decode31_of_notXo (xo9_encXFX .. ▸ h))

theorem decode_encX63 {xo : BitVec 10} (h : xo.toNat % 32 ∉ aFormOpcodes) :
    decode (encX 63 a b c xo r) = decode63X (encX 63 a b c xo r) :=
  (decode_primary63 (primary_encX ..)).trans (decode63_of_notA (xo5_encX .. ▸ h))

theorem decode_encXO {xo : BitVec 9} : decode (encXO a b c oe xo r) = decode31 (encXO a b c oe xo r) :=
  decode_primary31 (primary_encXO ..)

theorem decode_encA59 {d e : BitVec 5} : decode (encA 59 a b c d e r) = decode59 (encA 59 a b c d e r) :=
  decode_primary59 (primary_encA ..)

theorem decode_encA63 {d e : BitVec 5} : decode (encA 63 a b c d e r) = decode63 (encA 63 a b c d e r) :=
  decode_primary63 (primary_encA ..)

end

/-! ### Fields with reserved bits beside them (R267 to R270) -/

/-- The CR field of a compare, left of a reserved bit and L. -/
theorem compare_crField (crf : BitVec 3) (l : Bool) : (crf ++ 0#1 ++ bit1 l).extractLsb' 2 3 = crf := by
  rw [extract_high (k := 1) _ _ (by omega), extract_high (k := 0) _ _ (by omega), extract_all]

/-- The L bit of a compare. -/
theorem compare_long (crf : BitVec 3) (l : Bool) : (crf ++ 0#1 ++ bit1 l).getLsbD 0 = l := by
  rw [BitVec.getLsbD_append]
  exact bit1_getLsbD l

theorem segment_field (sr : BitVec 4) : (0#1 ++ sr).extractLsb' 0 4 = sr := by
  rw [extract_low _ _ (by omega), extract_all]

theorem immediate_field (imm : BitVec 4) : (imm ++ 0#1).extractLsb' 1 4 = imm := by
  rw [extract_high (k := 0) _ _ (by omega), extract_all]

theorem crm_field (crm : BitVec 8) : (0#1 ++ crm ++ 0#1).extractLsb' 1 8 = crm := by
  rw [extract_high (k := 0) _ _ (by omega), extract_low _ _ (by omega), extract_all]

/-! ### The words of a form of their own: branches (R264, R265) and `mtfsf` (R271) -/

theorem decode_b (li : BitVec 24) (aa lk : Bool) :
    decode (18#6 ++ li ++ bit1 aa ++ bit1 lk) = .ok (.b li aa lk) := by
  have target : (18#6 ++ li ++ bit1 aa ++ bit1 lk).extractLsb' 2 24 = li := by
    rw [extract_high (k := 1) _ _ (by omega), extract_high (k := 0) _ _ (by omega), extract_low _ _ (by omega),
      extract_all]
  have absolute : bitAt (18#6 ++ li ++ bit1 aa ++ bit1 lk) 1 = aa := by
    rw [bitAt_eq, extract_high (k := 0) _ _ (by omega), extract_low _ _ (by omega), extract_all, bit1_getLsbD]
  have link : bitAt (18#6 ++ li ++ bit1 aa ++ bit1 lk) 0 = lk := by
    rw [bitAt_eq, extract_low _ _ (by omega), extract_all, bit1_getLsbD]
  unfold decode
  rw [primary_b, target, absolute, link]
  rfl

theorem decode_bc (bo bi : BitVec 5) (bd : BitVec 14) (aa lk : Bool) :
    decode (16#6 ++ bo ++ bi ++ bd ++ bit1 aa ++ bit1 lk) = .ok (.bc bo bi bd aa lk) := by
  have options : (16#6 ++ bo ++ bi ++ bd ++ bit1 aa ++ bit1 lk).extractLsb' 21 5 = bo := by
    rw [extract_high (k := 20) _ _ (by omega), extract_high (k := 19) _ _ (by omega),
      extract_high (k := 5) _ _ (by omega), extract_high (k := 0) _ _ (by omega), extract_low _ _ (by omega),
      extract_all]
  have condition : (16#6 ++ bo ++ bi ++ bd ++ bit1 aa ++ bit1 lk).extractLsb' 16 5 = bi := by
    rw [extract_high (k := 15) _ _ (by omega), extract_high (k := 14) _ _ (by omega),
      extract_high (k := 0) _ _ (by omega), extract_low _ _ (by omega), extract_all]
  have target : (16#6 ++ bo ++ bi ++ bd ++ bit1 aa ++ bit1 lk).extractLsb' 2 14 = bd := by
    rw [extract_high (k := 1) _ _ (by omega), extract_high (k := 0) _ _ (by omega), extract_low _ _ (by omega),
      extract_all]
  have absolute : bitAt (16#6 ++ bo ++ bi ++ bd ++ bit1 aa ++ bit1 lk) 1 = aa := by
    rw [bitAt_eq, extract_high (k := 0) _ _ (by omega), extract_low _ _ (by omega), extract_all, bit1_getLsbD]
  have link : bitAt (16#6 ++ bo ++ bi ++ bd ++ bit1 aa ++ bit1 lk) 0 = lk := by
    rw [bitAt_eq, extract_low _ _ (by omega), extract_all, bit1_getLsbD]
  unfold decode
  rw [primary_bc, options, condition, target, absolute, link]
  rfl

theorem decode_mtfsf (fm : BitVec 8) (frB : BitVec 5) (rc : Bool) :
    decode (63#6 ++ 0#1 ++ fm ++ 0#1 ++ frB ++ 711#10 ++ bit1 rc) = .ok (.mtfsf fm frB rc) := by
  have ten : xo10 (63#6 ++ 0#1 ++ fm ++ 0#1 ++ frB ++ 711#10 ++ bit1 rc) = 711 := by
    rw [xo10, extract_high (k := 0) _ _ (by omega), extract_low _ _ (by omega), extract_all]
    rfl
  have five : xo5 (63#6 ++ 0#1 ++ fm ++ 0#1 ++ frB ++ 711#10 ++ bit1 rc) = 7 := by
    rw [xo5, extract_high (k := 0) _ _ (by omega), extract_low _ _ (by omega)]
    rfl
  have mask : (63#6 ++ 0#1 ++ fm ++ 0#1 ++ frB ++ 711#10 ++ bit1 rc).extractLsb' 17 8 = fm := by
    rw [extract_high (k := 16) _ _ (by omega), extract_high (k := 6) _ _ (by omega),
      extract_high (k := 1) _ _ (by omega), extract_high (k := 0) _ _ (by omega), extract_low _ _ (by omega),
      extract_all]
  have source : (63#6 ++ 0#1 ++ fm ++ 0#1 ++ frB ++ 711#10 ++ bit1 rc).extractLsb' 11 5 = frB := by
    rw [extract_high (k := 10) _ _ (by omega), extract_high (k := 0) _ _ (by omega), extract_low _ _ (by omega),
      extract_all]
  have record : bitAt (63#6 ++ 0#1 ++ fm ++ 0#1 ++ frB ++ 711#10 ++ bit1 rc) 0 = rc := by
    rw [bitAt_eq, extract_low _ _ (by omega), extract_all, bit1_getLsbD]
  rw [decode_primary63 (primary_mtfsf ..), decode63_of_notA (by rw [five]; decide)]
  unfold decode63X
  rw [ten, mask, source, record]
  rfl

/-! ### Every instruction, form by form -/

/-- Decoding the word of an instruction gives it back: its opcodes lead to its row of the tables, and each field of
the row reads what the encoder put there. -/
theorem decode_encode (i : Instr) : decode (encode i) = .ok i := by
  cases i with
  | addi | addis | addic | addicRec | subfic | mulli | andiRec | andisRec | ori | oris | xori | xoris | lbz | lbzu | lhz
    | lhzu | lha | lhau | lwz | lwzu | stb | stbu | sth | sthu | stw | stwu | lmw | stmw | lfs | lfsu | lfd | lfdu | stfs
    | stfsu | stfd | stfdu | twi =>
    rw [encode]
    unfold decode
    rw [primary_encD, encD_a, encD_b, encD_imm]
    rfl
  | cmpi | cmpli =>
    rw [encode]
    unfold decode
    rw [primary_encD, encD_a_2_3, encD_bit10, encD_b, encD_imm, compare_crField, compare_long]
    rfl
  | add | subf | addc | subfc | adde | subfe | addme | subfme | addze | subfze | neg | mullw | mulhw | mulhwu | divw
    | divwu =>
    rw [encode, decode_encXO]
    unfold decode31
    rw [xo9_encXO, encXO_a, encXO_b, encXO_c, encXO_oe, encXO_r]
    rfl
  | and | or | xor | nand | nor | eqv | andc | orc | extsb | extsh | cntlzw | slw | srw | srawi | sraw | lbzx | lbzux
    | lhzx | lhzux | lhax | lhaux | lwzx | lwzux | stbx | stbux | sthx | sthux | stwx | stwux | lhbrx | lwbrx | sthbrx
    | stwbrx | lswi | lswx | stswi | stswx | lfsx | lfsux | lfdx | lfdux | stfsx | stfsux | stfdx | stfdux | stfiwx | tw
    | mtmsr | mfmsr | mfcr | lwarx | stwcxRec | sync | eieio | dcbt | dcbtst | dcbz | dcbst | dcbf | icbi | dcbi | eciwx
    | ecowx | mtsrin | mfsrin | tlbie | tlbsync =>
    rw [encode, decode_encX31 (by decide)]
    unfold decode31X
    rw [xo10_encX, encX_a, encX_b, encX_c, encX_r]
    rfl
  | cmp | cmpl =>
    rw [encode, decode_encX31 (by decide)]
    unfold decode31X
    rw [xo10_encX, encX_a_2_3, encX_bit10, encX_b, encX_c, compare_crField, compare_long]
    rfl
  | mcrxr =>
    rw [encode, decode_encX31 (by decide)]
    unfold decode31X
    rw [xo10_encX, encX_a_2_3, crf_left]
    rfl
  | mtsr | mfsr =>
    rw [encode, decode_encX31 (by decide)]
    unfold decode31X
    rw [xo10_encX, encX_a, encX_b_0_4, segment_field]
    rfl
  | mtcrf =>
    rw [encode, decode_encXFX (by decide)]
    unfold decode31X
    rw [xo10_encXFX, encXFX_a, encXFX_spr_1_8, crm_field]
    rfl
  | mtspr | mfspr | mftb =>
    rw [encode, decode_encXFX (by decide)]
    unfold decode31X
    rw [xo10_encXFX, encXFX_a, sprOf_encXFX, encXFX_r]
    rfl
  | rlwinm | rlwnm | rlwimi =>
    rw [encode]
    unfold decode
    rw [primary_encA, encA_a, encA_b, encA_c, encA_d, encA_e, encA_r]
    rfl
  | fadds | fsubs | fmuls | fdivs | fres | fmadds | fmsubs | fnmadds | fnmsubs =>
    rw [encode, decode_encA59]
    unfold decode59
    rw [xo5_encA, encA_a, encA_b, encA_c, encA_d, encA_r]
    rfl
  | fadd | fsub | fmul | fdiv | frsqrte | fsel | fmadd | fmsub | fnmadd | fnmsub =>
    rw [encode, decode_encA63]
    unfold decode63
    rw [xo5_encA, encA_a, encA_b, encA_c, encA_d, encA_r]
    rfl
  | frsp | fctiw | fctiwz | mffs | mtfsb0 | mtfsb1 | fmr | fneg | fabs | fnabs =>
    rw [encode, decode_encX63 (by decide)]
    unfold decode63X
    rw [xo10_encX, encX_a, encX_c, encX_r]
    rfl
  | fcmpu | fcmpo =>
    rw [encode, decode_encX63 (by decide)]
    unfold decode63X
    rw [xo10_encX, encX_a_2_3, encX_b, encX_c, encX_r, crf_left]
    rfl
  | mcrfs =>
    rw [encode, decode_encX63 (by decide)]
    unfold decode63X
    rw [xo10_encX, encX_a_2_3, encX_b_2_3, crf_left, crf_left]
    rfl
  | mtfsfi =>
    rw [encode, decode_encX63 (by decide)]
    unfold decode63X
    rw [xo10_encX, encX_a_2_3, encX_c_1_4, encX_r, crf_left, immediate_field]
    rfl
  | mtfsf => exact decode_mtfsf ..
  | b => exact decode_b ..
  | bc => exact decode_bc ..
  | bclr | bcctr | crand | cror | crxor | crnand | crnor | creqv | crandc | crorc | rfi | isync =>
    rw [encode, decode_encX19]
    unfold decode19
    rw [xo10_encX, encX_a, encX_b, encX_c, encX_r]
    rfl
  | mcrf =>
    rw [encode, decode_encX19]
    unfold decode19
    rw [xo10_encX, encX_a_2_3, encX_b_2_3, crf_left, crf_left]
    rfl
  | sc => decide

/-! ### Bytes (R260) -/

theorem wordOfBytes_bytesOfWord (w : Word) :
    wordOfBytes (w.extractLsb' 24 8) (w.extractLsb' 16 8) (w.extractLsb' 8 8) (w.extractLsb' 0 8) = w := by
  rw [wordOfBytes, BitVec.extractLsb'_append_extractLsb'_eq_extractLsb' (by rfl),
    BitVec.extractLsb'_append_extractLsb'_eq_extractLsb' (by rfl),
    BitVec.extractLsb'_append_extractLsb'_eq_extractLsb' (by rfl), extract_all]

/-- The four bytes of a word that decodes, before any others, are one instruction. -/
theorem decodeBytes_bytesOfWord {w : Word} {i : Instr} (h : decode w = .ok i) (rest : List Byte) :
    decodeBytes (bytesOfWord w ++ rest) = .ok (i, rest) := by
  show decodeBytes (_ :: _ :: _ :: _ :: rest) = _
  rw [decodeBytes, wordOfBytes_bytesOfWord, h]

/-- Settles O1: the word by the round trip of every form, the bytes by joining them to the word. -/
theorem decodeOfEncode : Obligations.DecodeOfEncode :=
  fun i => ⟨decode_encode i, decodeBytes_bytesOfWord (decode_encode i)⟩

/-- Settles O2: each word is the one the encoder writes for its instruction, which the round trip decodes. -/
theorem tableWordsDecode : Obligations.TableWordsDecode :=
  ⟨decode_encode (.addi 3 0 0xFFFF), decode_encode (.add 3 4 5 true true), decode_encode (.fadd 1 2 3 false),
    decode_encode (.lwz 3 4 8), decode_encode (.bc 16 0 0x3FFE false false), decode_encode (.mtspr 5 8 false)⟩

end Sys2Proof
end

section
/-! SUPPORT. Proofs/RecordBit.lean: bit 31 of an instruction that has no record form (O26). -/

namespace Sys2Proof.Machine

/-! ### States and outcomes that differ in CR0 -/

/-- `u` is `t` but for CR0 and the count of free values. -/
def State.freedCr0 (t u : State) : Prop :=
  u = { t with cr := u.cr, fresh := u.fresh } ∧ ∀ k, 4 ≤ k → beBit u.cr k = beBit t.cr k

/-- Where the outcome `a` is a next state, `b` is that state but for CR0 and the count of free values. -/
def FreesCr0 (a b : Result) : Prop := ∀ t, a = .next t → ∃ u, b = .next u ∧ t.freedCr0 u

theorem State.freedCr0_refl (t : State) : t.freedCr0 t := ⟨rfl, fun _ _ => rfl⟩

/-- A wrong bit 31 draws CR0 (R293, R295, R503). -/
theorem State.freedCr0_badRecordBit (t : State) :
    (t.badRecordBit false).advance.freedCr0 (t.badRecordBit true).advance := by
  refine ⟨rfl, fun k hk => ?_⟩
  have other : k / 4 ≠ 0 := by omega
  exact (beBit_setField4 t.cr (by decide) _ k).trans (if_neg other)

theorem FreesCr0.next {t u : State} (h : t.freedCr0 u) : FreesCr0 (.next t) (.next u) := by
  rintro _ ⟨⟩
  exact ⟨u, rfl, h⟩

theorem FreesCr0.refl (a : Result) : FreesCr0 a a := fun t h => ⟨t, h, t.freedCr0_refl⟩

theorem FreesCr0.ite {a a' b b' : Result} {p : Prop} [Decidable p] (ha : FreesCr0 a a') (hb : FreesCr0 b b') :
    FreesCr0 (if p then a else b) (if p then a' else b') := by
  by_cases h : p
  · rwa [if_pos h, if_pos h]
  · rwa [if_neg h, if_neg h]

/-! ### The word of an instruction beside bit 31 -/

/-- The words of two instructions are one beside bit 31. -/
def SameButBit31 (i j : Instr) : Prop := (encode i).extractLsb' 1 31 = (encode j).extractLsb' 1 31

/-- The encoder writes the record bit to bit 31 and nowhere else (R268). -/
theorem encX_sameButBit31 {op : BitVec 6} {a b c : BitVec 5} {xo : BitVec 10} {r r' : Bool} :
    (encX op a b c xo r).extractLsb' 1 31 = (encX op a b c xo r').extractLsb' 1 31 := by
  have above (r : Bool) : (encX op a b c xo r).extractLsb' 1 31 = op ++ a ++ b ++ c ++ xo := by
    rw [encX, extract_high (k := 0) _ _ (by omega)]
    exact extract_all _
  rw [above, above]

/-- DSISR after an alignment exception does not tell bit 31 (R761). -/
theorem alignDsisr_congr {w w' : Word} (h : w.extractLsb' 1 31 = w'.extractLsb' 1 31) (f : AlignForm) (free : Word) :
    alignDsisr w f free = alignDsisr w' f free := by
  have field (k j : Nat) (hk : k + j ≤ 31) : w.extractLsb' (1 + k) j = w'.extractLsb' (1 + k) j := by
    rw [← extract_extract w 1 31 k j hk, h, extract_extract _ _ _ _ _ hk]
  unfold alignDsisr
  rw [field 25 6 (by omega), field 0 2 (by omega), field 5 1 (by omega), field 6 4 (by omega), field 25 1 (by omega),
    field 26 4 (by omega), field 15 10 (by omega)]

/-! ### The forms of an access -/

section
variable {s : State} {i j : Instr} {u : Use} {f : AlignForm} {ea : Word} {n : Nat} {put : List Byte → State → State}
  {g : State → State} {bs : List Byte} {rD : Reg} {bad : Bool}

theorem State.alignment_frees (hw : SameButBit31 i j) :
    FreesCr0 (.next (s.takeAlignment (encode i) f ea)) (.next (s.takeAlignment (encode j) f ea)) := by
  rw [State.takeAlignment, alignDsisr_congr hw]
  exact .refl _

/-- The end of an access: what the two instructions do after it is all that can differ. -/
theorem Acc.finishWith_frees (r : Acc) {target part : List Byte → State → State} {rest rest' : State → State}
    (h : ∀ t, (rest t).advance.freedCr0 (rest' t).advance) (hw : SameButBit31 i j) :
    FreesCr0 (r.finishWith (encode i) f ea target rest part) (r.finishWith (encode j) f ea target rest' part) := by
  cases r with
  | ok b s => exact .next (h _)
  | okError b c d s => exact .refl _
  | dsi b c d s => exact .refl _
  | align s => exact State.alignment_frees hw
  | refuse x => exact .refl _

theorem State.loadForm_frees (hw : SameButBit31 i j) :
    FreesCr0 (s.loadForm i u f ea n put fun t => (g t).badRecordBit false)
      (s.loadForm j u f ea n put fun t => (g t).badRecordBit true) :=
  Acc.finishWith_frees _ (fun t => (g t).freedCr0_badRecordBit) hw

theorem State.storeForm_frees (hw : SameButBit31 i j) :
    FreesCr0 (s.storeForm i u f ea bs fun t => (g t).badRecordBit false)
      (s.storeForm j u f ea bs fun t => (g t).badRecordBit true) :=
  Acc.finishWith_frees _ (fun t => (g t).freedCr0_badRecordBit) hw

theorem State.fpLoadForm_frees (hw : SameButBit31 i j) :
    FreesCr0 (s.fpLoadForm i f ea n put fun t => (g t).badRecordBit false)
      (s.fpLoadForm j f ea n put fun t => (g t).badRecordBit true) :=
  .ite (.ite (State.loadForm_frees hw) (State.alignment_frees hw)) (.refl _)

theorem State.fpStoreForm_frees (hw : SameButBit31 i j) :
    FreesCr0 (s.fpStoreForm i f ea bs fun t => (g t).badRecordBit false)
      (s.fpStoreForm j f ea bs fun t => (g t).badRecordBit true) :=
  .ite (.ite (State.storeForm_frees hw) (State.alignment_frees hw)) (.refl _)

theorem State.loadRegs_frees (hw : SameButBit31 i j) :
    FreesCr0 (s.loadRegs i rD ea n bad false) (s.loadRegs j rD ea n bad true) :=
  Acc.finishWith_frees _ (fun t => t.freedCr0_badRecordBit) hw

theorem State.storeRegs_frees (hw : SameButBit31 i j) :
    FreesCr0 (s.storeRegs i f rD ea n false) (s.storeRegs j f rD ea n true) :=
  Acc.finishWith_frees _ (fun t => t.freedCr0_badRecordBit) hw

/-- One translated address: the two instructions differ in what they do at the physical address at most. -/
theorem State.withAddress_frees {direct : State → Result} {k k' : Word → BitVec 4 → State → Result}
    (h : ∀ pa wimg t, FreesCr0 (k pa wimg t) (k' pa wimg t)) (hw : SameButBit31 i j) :
    FreesCr0 (s.withAddress i f u ea direct k) (s.withAddress j f u ea direct k') := by
  unfold State.withAddress
  split
  · exact h _ _ _
  · exact .refl _
  · exact Acc.finishWith_frees _ (fun t => t.advance.freedCr0_refl) hw

theorem State.checkSpr_frees {spr : BitVec 10} {defined : Bool} {a b : Result} (h : FreesCr0 a b) :
    FreesCr0 (s.checkSpr spr defined a) (s.checkSpr spr defined b) :=
  .ite (.refl _) (.ite h (.refl _))

end

/-- Settles O26: the two forms make one access, with one word beside bit 31, and end by drawing CR0 or not. -/
theorem recordBitFreesCr0 : Obligations.RecordBitFreesCr0 := by
  intro s t r rA rB n same
  have word {a b c : BitVec 5} {xo : BitVec 10} {bit bit' : Bool} :
      (encX 31 a b c xo bit).extractLsb' 1 31 = (encX 31 a b c xo bit').extractLsb' 1 31 := encX_sameButBit31
  have mtspr : FreesCr0 (execMtspr r n false s) (execMtspr r n true s) :=
    State.checkSpr_frees (.next (State.freedCr0_badRecordBit _))
  have stwcx : FreesCr0 (execStwcxRec r rA rB true s) (execStwcxRec r rA rB false s) :=
    .ite (State.withAddress_frees (fun _ _ _ => .next (State.freedCr0_badRecordBit _)) word)
      (State.alignment_frees word)
  suffices forms : ∀ f : Bool → Instr, f ∈ _ → FreesCr0 (exec (f false) s) (exec (f true) s) from
    ⟨fun f hf => forms f hf t, fun _ => mtspr t, stwcx t⟩
  simp only [List.forall_mem_cons]
  exact ⟨show FreesCr0 (execLbzx ..) (execLbzx ..) from State.loadForm_frees word,
    show FreesCr0 (execLbzux ..) (execLbzux ..) from State.loadForm_frees word,
    show FreesCr0 (execLhzx ..) (execLhzx ..) from State.loadForm_frees word,
    show FreesCr0 (execLhzux ..) (execLhzux ..) from State.loadForm_frees word,
    show FreesCr0 (execLhax ..) (execLhax ..) from State.loadForm_frees word,
    show FreesCr0 (execLhaux ..) (execLhaux ..) from State.loadForm_frees word,
    show FreesCr0 (execLwzx ..) (execLwzx ..) from State.loadForm_frees word,
    show FreesCr0 (execLwzux ..) (execLwzux ..) from State.loadForm_frees word,
    show FreesCr0 (execStbx ..) (execStbx ..) from State.storeForm_frees word,
    show FreesCr0 (execStbux ..) (execStbux ..) from State.storeForm_frees word,
    show FreesCr0 (execSthx ..) (execSthx ..) from State.storeForm_frees word,
    show FreesCr0 (execSthux ..) (execSthux ..) from State.storeForm_frees word,
    show FreesCr0 (execStwx ..) (execStwx ..) from State.storeForm_frees word,
    show FreesCr0 (execStwux ..) (execStwux ..) from State.storeForm_frees word,
    show FreesCr0 (execLhbrx ..) (execLhbrx ..) from State.loadForm_frees word,
    show FreesCr0 (execLwbrx ..) (execLwbrx ..) from State.loadForm_frees word,
    show FreesCr0 (execSthbrx ..) (execSthbrx ..) from State.storeForm_frees word,
    show FreesCr0 (execStwbrx ..) (execStwbrx ..) from State.storeForm_frees word,
    show FreesCr0 (execLswi ..) (execLswi ..) from .ite (State.alignment_frees word) (State.loadRegs_frees word),
    show FreesCr0 (execLswx ..) (execLswx ..) from
      .ite (State.alignment_frees word) (.ite (.next (State.freedCr0_badRecordBit _)) (State.loadRegs_frees word)),
    show FreesCr0 (execStswi ..) (execStswi ..) from .ite (State.alignment_frees word) (State.storeRegs_frees word),
    show FreesCr0 (execStswx ..) (execStswx ..) from .ite (State.alignment_frees word) (State.storeRegs_frees word),
    show FreesCr0 (execLfsx ..) (execLfsx ..) from State.fpLoadForm_frees word,
    show FreesCr0 (execLfsux ..) (execLfsux ..) from State.fpLoadForm_frees word,
    show FreesCr0 (execLfdx ..) (execLfdx ..) from State.fpLoadForm_frees word,
    show FreesCr0 (execLfdux ..) (execLfdux ..) from State.fpLoadForm_frees word,
    show FreesCr0 (execStfsx ..) (execStfsx ..) from State.fpStoreForm_frees word,
    show FreesCr0 (execStfsux ..) (execStfsux ..) from State.fpStoreForm_frees word,
    show FreesCr0 (execStfdx ..) (execStfdx ..) from State.fpStoreForm_frees word,
    show FreesCr0 (execStfdux ..) (execStfdux ..) from State.fpStoreForm_frees word,
    show FreesCr0 (execStfiwx ..) (execStfiwx ..) from State.fpStoreForm_frees word,
    show FreesCr0 (execLwarx ..) (execLwarx ..) from
      .ite (State.withAddress_frees (fun _ _ _ => .next (State.freedCr0_badRecordBit _)) word)
        (State.alignment_frees word),
    show FreesCr0 (execSync ..) (execSync ..) from .next (State.freedCr0_badRecordBit _),
    show FreesCr0 (execMfspr ..) (execMfspr ..) from
      State.checkSpr_frees (.next (State.freedCr0_badRecordBit _)),
    List.forall_mem_nil _⟩

end Sys2Proof.Machine
end

section
/-! SUPPORT. Proofs/PrivilegedIllegal.lean: the program exceptions of privileged and of illegal instructions (O15). -/

namespace Sys2Proof.Machine

section
variable {s : State}

/-- In user mode an instruction for the supervisor is privileged (R650). -/
theorem State.supervisorOnly_user (user : s.msrPR = true) (k : Result) :
    s.supervisorOnly k = .next s.takePrivileged := if_pos user

/-- In user mode an SPR number with spr[0] = 1 is privileged (R662). -/
theorem State.checkSpr_user {n : BitVec 10} (user : s.msrPR = true) (high : n.getLsbD 4 = true) (defined : Bool)
    (k : Result) : s.checkSpr n defined k = .next s.takePrivileged :=
  if_pos (Bool.and_eq_true_iff.2 ⟨user, high⟩)

/-- An SPR number that is permitted and undefined is illegal (R660, R662). -/
theorem State.checkSpr_undefined {n : BitVec 10} (permitted : ¬(s.msrPR = true ∧ n.getLsbD 4 = true)) {l : List Nat}
    (undefined : n.toNat ∉ l) (k : Result) : s.checkSpr n (l.contains n.toNat) k = .next s.takeIllegal := by
  have absent : ¬l.contains n.toNat = true := fun h => undefined (List.contains_iff_mem.1 h)
  rw [State.checkSpr, if_neg (fun h => permitted (Bool.and_eq_true_iff.1 h)), if_neg absent]

theorem State.runWord_error {w : Word} {e : DecodeError} (h : decode w = .error e) :
    s.runWord w = .next s.takeIllegal := by
  rw [State.runWord, h]

/-- Of the time base numbers two are defined (R668). -/
theorem execMftb_undefined (r : Reg) {n : BitVec 10} (lower : n ≠ 268) (upper : n ≠ 269) :
    execMftb r n s = .next s.takeIllegal := by
  rw [execMftb, if_neg lower, if_neg upper]

/-- The instructions that are privileged whatever their operands (R650). -/
theorem exec_privileged (user : s.msrPR = true) {r q : Reg} {n : BitVec 4} {i : Instr}
    (hi : i ∈ [.rfi, .mtmsr r, .mfmsr r, .mtsr r n, .mtsrin r q, .mfsr r n, .mfsrin r q, .tlbie r, .tlbsync,
      .dcbi r q]) :
    exec i s = .next s.takePrivileged := by
  simp only [List.mem_cons, List.not_mem_nil, or_false] at hi
  obtain rfl | rfl | rfl | rfl | rfl | rfl | rfl | rfl | rfl | rfl := hi <;> exact State.supervisorOnly_user user _

/-- The moves of a special register in user mode (R662). -/
theorem exec_spr_privileged (user : s.msrPR = true) {r : Reg} {spr : BitVec 10} {rc : Bool}
    (high : spr.getLsbD 4 = true) {i : Instr} (hi : i ∈ [.mtspr r spr rc, .mfspr r spr rc]) :
    exec i s = .next s.takePrivileged := by
  simp only [List.mem_cons, List.not_mem_nil, or_false] at hi
  obtain rfl | rfl := hi <;> exact State.checkSpr_user user high _ _

end

/-- Settles O15: each is one of the two program exceptions, by the test that its rule names. -/
theorem privilegedAndIllegal : Obligations.PrivilegedAndIllegal := by
  refine ⟨fun s r q n spr rc i user hi => ?_, fun s => ?_⟩
  · have privileged : exec i s = .next s.takePrivileged :=
      hi.elim (exec_privileged user) fun ⟨high, h⟩ => exec_spr_privileged user high h
    exact ⟨_, privileged, State.tookException_takeException _ _ _ _⟩
  · intro illegal
    have taken {r : Result} (h : r = .next s.takeIllegal) : illegal r :=
      ⟨_, h, State.tookException_takeException _ _ _ _⟩
    exact ⟨fun w e h => taken (State.runWord_error h), fun r n rc =>
      ⟨fun permitted undefined => taken (State.checkSpr_undefined permitted undefined _),
        fun permitted undefined => taken (State.checkSpr_undefined permitted undefined _),
        fun lower upper => taken (execMftb_undefined r lower upper)⟩⟩

end Sys2Proof.Machine
end

section
/-! SUPPORT. Proofs/InvalidForms.lean: the loads and stores of invalid form (O25, log entry 30). -/

namespace Sys2Proof.Machine

/-! ### What ends undefined (R502) -/

section
variable {s t : State} {rD rA : Reg}

/-- The base register of an invalid load with update gets a free value (R502). -/
theorem State.updateLoad_invalid (h : rA = 0 ∨ rA = rD) (t : State) (ea : Word) :
    t.updateLoad rD rA ea = t.undefineGpr rA := by
  rw [State.updateLoad]
  split_ifs with h0 hD
  · rw [h0]
  · rw [hD]
  · exact absurd h (not_or.2 ⟨h0, hD⟩)

/-- The base register of a store with update and rA = 0 gets a free value (R502). -/
theorem State.updateBase_invalid (h : rA = 0) (t : State) (ea : Word) :
    t.updateBase rA ea = t.undefineGpr rA := by
  rw [State.updateBase, if_pos h, h]

theorem State.fresh_of_onlyMemorySystem (h : s.onlyMemorySystem t) : t.fresh = s.fresh := by rw [h]

end

/-! ### Loads and stores with update (R291, R502) -/

section
variable {s : State} {i : Instr} {f : AlignForm} {ea pa : Word} {wimg : BitVec 4} {n : Nat} {rD rA : Reg}
  {bs : List Byte}

/-- A load with update whose base register is 0 or the target: the base register ends free, the target, where it is
another, with the operand. -/
theorem State.loadUpdate_invalid (value : List Byte → Word) (h : rA = 0 ∨ rA = rD)
    (hp : s.plainOperand .load ea pa wimg n)
    (run : exec i s = s.loadForm i .load f ea n (fun b t => t.writeGpr rD (value b)) fun t => t.updateLoad rD rA ea) :
    ∃ t, exec i s = .next t ∧ s.accessed { t with fresh := s.fresh } [rD, rA] ∧
      (rD ≠ rA → t.readGpr rD = value (s.operandBytes pa n)) := by
  obtain ⟨t, loaded, only, same⟩ := State.loadForm_plain (i := i) (f := f) (by decide) hp
    (fun b t => t.writeGpr rD (value b)) fun t => t.updateLoad rD rA ea
  rw [State.updateLoad_invalid h] at loaded
  refine ⟨_, run.trans loaded, ?_, fun other => ?_⟩
  · rw [← State.fresh_of_onlyMemorySystem only]
    exact State.accessed_writeGpr_writeGpr only same ..
  · exact (State.readGpr_writeGpr_other _ _ _ _ other).trans (State.readGpr_writeGpr_same _ _ _)

/-- A store with update and rA = 0: the bytes are stored, GPR0 ends free. -/
theorem State.storeUpdate_invalid (h : rA = 0) (hn : bs.length = n) (hp : s.plainOperand .store ea pa wimg n)
    (run : exec i s = s.storeForm i .store f ea bs fun t => t.updateBase rA ea) :
    ∃ t, exec i s = .next t ∧ s.stored { t with fresh := s.fresh } [rA] pa bs := by
  obtain ⟨t, done, only, wrote⟩ := State.storeForm_plain (i := i) (f := f) rfl hn hp fun t => t.updateBase rA ea
  rw [State.updateBase_invalid h] at done
  refine ⟨_, run.trans done, ?_⟩
  rw [← State.fresh_of_onlyMemorySystem only]
  exact State.stored_writeGpr only wrote ..

end

/-! ### Loads of several registers that end free (R551, R555 to R557) -/

/-- `t` is the state after an instruction that changed `k` registers from `r` on, the bus log and the count of free
values at most. -/
def State.changedRegs (s t : State) (r : Reg) (k : Nat) : Prop :=
  t = { s with gpr := t.gpr, pc := s.pc + 4, busLog := t.busLog, fresh := t.fresh } ∧
  ∀ q, (∀ j < k, q ≠ r + BitVec.ofNat 5 j) → t.readGpr q = s.readGpr q

theorem State.undefineRegs_state (k : Nat) : ∀ (s : State) (r : Reg),
    s.undefineRegs r k = { s with gpr := (s.undefineRegs r k).gpr, fresh := (s.undefineRegs r k).fresh } := by
  induction k with
  | zero => exact fun _ _ => rfl
  | succ k ih =>
    intro s r
    rw [State.undefineRegs, ih]
    rfl

theorem State.readGpr_undefineRegs_other (k : Nat) : ∀ (s : State) (r q : Reg),
    (∀ j < k, q ≠ r + BitVec.ofNat 5 j) → (s.undefineRegs r k).readGpr q = s.readGpr q := by
  induction k with
  | zero => exact fun _ _ _ _ => rfl
  | succ k ih =>
    intro s r q hq
    have first : q ≠ r := by simpa using hq 0 (Nat.succ_pos k)
    rw [State.undefineRegs, ih]
    · exact State.readGpr_writeGpr_other _ _ _ _ first
    · intro j hj
      rw [reg_add_succ]
      exact hq (j + 1) (Nat.succ_lt_succ hj)

theorem State.changedRegs_undefineRegs (s : State) (l : List BusOp) (r : Reg) (k : Nat) :
    s.changedRegs (State.undefineRegs { s with busLog := l } r k).advance r k := by
  refine ⟨?_, fun q hq => State.readGpr_undefineRegs_other k _ r q hq⟩
  rw [State.undefineRegs_state]
  rfl

section
variable {s : State} {i : Instr} {rD : Reg} {ea : Word} {n : Nat}

/-- An invalid load of several registers completes, with all of them free. -/
theorem State.loadRegs_invalid (h : s.bareData) {bad : Bool} (invalid : bad = true)
    (run : exec i s = s.loadRegs i rD ea n bad false) :
    ∃ t, exec i s = .next t ∧ s.changedRegs t rD (regsFor n) := by
  obtain ⟨l, read⟩ := State.loadOperands_bare h (ops := groups ea n) groups_small
  refine ⟨_, run.trans ?_, s.changedRegs_undefineRegs l rD (regsFor n)⟩
  rw [State.loadRegs, read, invalid]
  rfl

end

/-- The registers of a string of `nb` bytes, 0 standing for 32 (R555, R556). -/
theorem stringImmRegs_eq (nb : BitVec 5) : stringImmRegs nb = regsFor (stringImm nb) := by
  unfold stringImmRegs stringImm
  split <;> rfl

/-- The registers that `lmw` loads, from rD to r31 (R551). -/
theorem regsFor_words (k : Nat) : regsFor (4 * k) = k := by
  unfold regsFor
  omega

/-- Settles O25: each form is the load or store of its valid form, whose undefined registers get free values. -/
theorem invalidFormsComplete : Obligations.InvalidFormsComplete := by
  intro s r rA rB d nb pa wimg base ea ex val loaded kept half regsOnly
  have len (n : Nat) (v : Word) : (lowBytes n v).length = n := bytesOfNat_length n v.toNat
  refine ⟨fun h => ?_, fun h => ?_, fun bare range align => ?_, fun bare range crosses => ?_, fun big none => ?_⟩
  · exact ⟨fun hp => State.loadUpdate_invalid wordOf h hp rfl,
      fun hp => ⟨State.loadUpdate_invalid wordOf h hp rfl, State.loadUpdate_invalid algebraic h hp rfl⟩,
      fun hp => State.loadUpdate_invalid wordOf h hp rfl, fun hp => State.loadUpdate_invalid wordOf h hp rfl,
      fun hp => ⟨State.loadUpdate_invalid wordOf h hp rfl, State.loadUpdate_invalid algebraic h hp rfl⟩,
      fun hp => State.loadUpdate_invalid wordOf h hp rfl⟩
  · exact ⟨fun hp => State.storeUpdate_invalid h (len _ _) hp rfl,
      fun hp => State.storeUpdate_invalid h (len _ _) hp rfl, fun hp => State.storeUpdate_invalid h (len _ _) hp rfl,
      fun hp => State.storeUpdate_invalid h (len _ _) hp rfl, fun hp => State.storeUpdate_invalid h (len _ _) hp rfl,
      fun hp => State.storeUpdate_invalid h (len _ _) hp rfl⟩
  · have aligned : (s.msrLE || !wordAligned (s.eaD rA d)) = false := by
      rw [bare.1.2.1, (wordAligned_iff (s.eaD rA d)).2 align]
      rfl
    have run := State.loadRegs_invalid (i := .lmw r rA d) bare (decide_eq_true range) (exec_ite_passed aligned rfl)
    rwa [regsFor_words] at run
  · have passed : (s.msrLE || stringCrosses (s.eaR rA) (stringImm nb)) = false := by
      rw [bare.1.2.1]
      exact crosses
    rw [stringImmRegs_eq] at range ⊢
    exact State.loadRegs_invalid bare range (exec_ite_passed passed rfl)
  · have count : s.stringCount = 0 := s.stringCount_eq.trans none
    have passed : (s.msrLE || stringCrosses (s.eaX rA rB) s.stringCount) = false := by
      rw [big, count]
      rfl
    exact ⟨_, (exec_ite_passed passed rfl).trans (if_pos count), s.changedRegs_undefineRegs s.busLog r 1⟩

end Sys2Proof.Machine
end

section
/-! SUPPORT. Proofs/IntegerResults.lean: the extended immediates, and a result with its overflow or with a free
quotient (O5 to O9). -/

namespace Sys2Proof.Machine

/-! ### Immediates (R15) -/

theorem toInt_sext16 (d : BitVec 16) : (sext16 d).toInt = d.toInt := BitVec.toInt_signExtend_of_le (by decide)

theorem toNat_zext16 (d : BitVec 16) : (zext16 d).toNat = d.toNat := BitVec.toNat_setWidth_of_le (by decide)

/-! ### Results that leave XER -/

/-- An instruction that writes a result and leaves XER: the result, the record, nothing else. -/
theorem exec_putResult_spec {s : State} {i : Instr} {r : Reg} {v : Word} {rc : Bool}
    (run : exec i s = s.putResult r v rc) :
    ∃ t, exec i s = .next t ∧ s.integerDone t r v ∧ t.xer = s.xer ∧ s.recorded t rc v := by
  rw [run]
  exact putResult_spec rfl r v rc

/-! ### OV and SO (R321) -/

/-- `overflowIf` writes XER only. -/
theorem State.overflowIf_state (s : State) (oe ov : Bool) :
    s.overflowIf oe ov = { s with xer := (s.overflowIf oe ov).xer } := by
  cases oe <;> rfl

theorem State.xer_overflowIf_kept (s : State) (oe ov : Bool) {k : Nat} (hk : 2 ≤ k) :
    beBit (s.overflowIf oe ov).xer k = beBit s.xer k := by
  rw [xer_overflowIf, if_neg (by omega), if_neg (by omega)]

theorem State.overflowed_of_xer {s t : State} {oe ov : Bool} (h : t.xer = (s.overflowIf oe ov).xer) :
    s.overflowed t oe ov := by
  rw [State.overflowed, h, xer_overflowIf, xer_overflowIf]
  cases oe <;> simp

/-- A result with an overflow condition: the result, OV and SO if asked to, the record, nothing else. -/
theorem State.putResult_overflowIf_spec (s : State) (r : Reg) (v : Word) (oe ov rc : Bool) :
    ∃ t, (s.overflowIf oe ov).putResult r v rc = .next t ∧ s.integerDone t r v ∧
      (∀ k, 2 ≤ k → beBit t.xer k = beBit s.xer k) ∧ s.overflowed t oe ov ∧ s.recorded t rc v := by
  obtain ⟨t, run, done, xer, recorded⟩ := putResult_spec (s.overflowIf_state oe ov) r v rc
  refine ⟨t, run, done, fun k hk => ?_, State.overflowed_of_xer xer, recorded⟩
  rw [xer, s.xer_overflowIf_kept oe ov hk]

/-! ### Free quotients (R342, R343) -/

/-- CR after a record whose first three bits are free: SO in CR0[3], the other fields as they were. -/
theorem State.cr_recordFree (u : State) (rc : Bool) (c : BitVec 3) :
    let t := (if rc then u.setCrField 0 (c ++ bit1 u.xerSO) else u).advance
    (∀ k, 4 ≤ k → beBit t.cr k = beBit u.cr k) ∧
      (if rc = true then beBit t.cr 3 = beBit u.xer 0 else t.cr = u.cr) := by
  cases rc with
  | false => exact ⟨fun _ _ => rfl, rfl⟩
  | true =>
    have field (k : Nat) : beBit (u.setCrField 0 (c ++ bit1 u.xerSO)).cr k =
        if k / 4 = 0 then (c ++ bit1 u.xerSO).getMsbD (k % 4) else beBit u.cr k := beBit_setField4 _ (by decide) _ _
    refine ⟨fun k hk => (field k).trans (if_neg (by omega)), (field 3).trans ?_⟩
    rw [if_pos rfl, BitVec.getMsbD_append]
    exact BitVec.getMsbD_ofBool (i := 0) _

/-- `putUndefinedQuotient`: OV and SO if asked to, CR0[3] if recorded; beside rD, XER and CR nothing changes. -/
theorem State.putUndefinedQuotient_spec (s : State) (rD : Reg) (q : Word) (c : BitVec 3) (oe rc : Bool) :
    ∃ t, s.putUndefinedQuotient rD q c oe rc = .next t ∧
      t = { s with gpr := t.gpr, xer := t.xer, cr := t.cr, pc := s.pc + 4 } ∧ s.gprsBut t [rD] ∧
      (∀ k, 2 ≤ k → beBit t.xer k = beBit s.xer k) ∧ s.overflowed t oe true ∧
      (∀ k, 4 ≤ k → beBit t.cr k = beBit s.cr k) ∧
      (if rc = true then beBit t.cr 3 = beBit t.xer 0 else t.cr = s.cr) := by
  have cr : ((s.overflowIf oe true).writeGpr rD q).cr = s.cr := by cases oe <;> rfl
  have gprs : s.gprsBut ((s.overflowIf oe true).writeGpr rD q) [rD] := by
    cases oe <;> exact State.gprsBut_writeGpr _ rD q
  obtain ⟨fields, so⟩ := ((s.overflowIf oe true).writeGpr rD q).cr_recordFree rc c
  rw [cr] at fields so
  refine ⟨_, rfl, ?_, ?_, fun k hk => ?_, ?_, fields, ?_⟩
  · cases oe <;> cases rc <;> rfl
  · cases rc <;> exact gprs
  · rw [← s.xer_overflowIf_kept oe true hk]
    cases rc <;> rfl
  · exact State.overflowed_of_xer (by cases rc <;> rfl)
  · cases rc <;> exact so

end Sys2Proof.Machine
end

section
/-! SUPPORT. Proofs/IntegerCompares.lean: the integer compares (O7). -/

namespace Sys2Proof.Machine

theorem putCompare_cmpSigned (s : State) (n : BitVec 3) (a b : Word) :
    ∃ t, s.putCompare n (cmpSigned a b s.xerSO) = .next t ∧ t = { s with cr := t.cr, pc := s.pc + 4 } ∧
      s.crFieldIs t n (decide (a.toInt < b.toInt)) (decide (b.toInt < a.toInt)) (decide (a.toInt = b.toInt))
        (beBit s.xer 0) := by
  have equal : (a == b) = decide (a.toInt = b.toInt) := by
    rw [Bool.eq_iff_iff, beq_iff_eq, decide_eq_true_eq, BitVec.toInt_inj]
  rw [← equal]
  exact putCompare_spec ..

theorem putCompare_cmpUnsigned (s : State) (n : BitVec 3) (a b : Word) :
    ∃ t, s.putCompare n (cmpUnsigned a b s.xerSO) = .next t ∧ t = { s with cr := t.cr, pc := s.pc + 4 } ∧
      s.crFieldIs t n (decide ((a.toNat : Int) < b.toNat)) (decide ((b.toNat : Int) < a.toNat))
        (decide ((a.toNat : Int) = b.toNat)) (beBit s.xer 0) := by
  have equal : (a == b) = decide (a.toNat = b.toNat) := by
    rw [Bool.eq_iff_iff, beq_iff_eq, decide_eq_true_eq, BitVec.toNat_inj]
  simp only [Int.ofNat_lt, Int.ofNat_inj]
  rw [← equal]
  exact putCompare_spec ..

/-- Settles O7: each compare writes one field; the immediate forms compare with the extended immediate. -/
theorem integerCompares : Obligations.IntegerCompares := by
  intro s crfD l rA rB imm a b done
  have signed (i : Instr) (y : Word) (run : exec i s = s.putCompare crfD (cmpSigned a y s.xerSO)) :
      done i a.toInt y.toInt := by
    obtain ⟨t, next, rest⟩ := putCompare_cmpSigned s crfD a y
    exact ⟨t, run.trans next, rest⟩
  have unsigned (i : Instr) (y : Word) (run : exec i s = s.putCompare crfD (cmpUnsigned a y s.xerSO)) :
      done i a.toNat y.toNat := by
    obtain ⟨t, next, rest⟩ := putCompare_cmpUnsigned s crfD a y
    exact ⟨t, run.trans next, rest⟩
  rw [← toInt_sext16 imm, ← toNat_zext16 imm]
  exact ⟨signed _ _ rfl, signed _ _ rfl, unsigned _ _ rfl, unsigned _ _ rfl⟩

end Sys2Proof.Machine
end

section
/-! SUPPORT. Proofs/Multiplications.lean: the multiplications as integer products (O5). -/

namespace Sys2Proof.Machine

/-! ### The product of 64 bits -/

theorem mulSigned_eq_ofInt (a b : Word) : mulSigned a b = BitVec.ofInt 64 (a.toInt * b.toInt) :=
  (BitVec.ofInt_mul _ _).symm

theorem mulUnsigned_eq_ofNat (a b : Word) : mulUnsigned a b = BitVec.ofNat 64 (a.toNat * b.toNat) := by
  rw [BitVec.ofNat_mul, BitVec.ofNat_toNat, BitVec.ofNat_toNat]
  rfl

/-- The low word of an integer. -/
theorem ofInt64_low (x : Int) : (BitVec.ofInt 64 x).setWidth 32 = BitVec.ofInt 32 x := by
  apply BitVec.eq_of_toNat_eq
  rw [BitVec.toNat_setWidth, BitVec.toNat_ofInt, BitVec.toNat_ofInt]
  omega

/-- The high word of an integer. -/
theorem ofInt64_high (x : Int) : (BitVec.ofInt 64 x).extractLsb' 32 32 = BitVec.ofInt 32 (x / 4294967296) := by
  apply BitVec.eq_of_toNat_eq
  rw [BitVec.extractLsb'_toNat, BitVec.toNat_ofInt, BitVec.toNat_ofInt, Nat.shiftRight_eq_div_pow]
  omega

theorem mulSigned_low (a b : Word) : (mulSigned a b).setWidth 32 = BitVec.ofInt 32 (a.toInt * b.toInt) := by
  rw [mulSigned_eq_ofInt, ofInt64_low]

theorem mulSigned_high (a b : Word) :
    (mulSigned a b).extractLsb' 32 32 = BitVec.ofInt 32 (a.toInt * b.toInt / 4294967296) := by
  rw [mulSigned_eq_ofInt, ofInt64_high]

theorem mulUnsigned_high (a b : Word) :
    (mulUnsigned a b).extractLsb' 32 32 = BitVec.ofNat 32 (a.toNat * b.toNat / 4294967296) := by
  have high := ofInt64_high ((a.toNat * b.toNat : Nat) : Int)
  rw [BitVec.ofInt_natCast] at high
  rw [mulUnsigned_eq_ofNat, high, ← BitVec.ofInt_natCast]
  rfl

/-- An integer of 63 bits that is cut to a word and extended again changes exactly when it is no signed word. -/
theorem ofInt_ne_signExtend_iff {x : Int} (lower : -4611686018427387904 ≤ x) (upper : x ≤ 4611686018427387904) :
    BitVec.ofInt 64 x ≠ (BitVec.ofInt 32 x).signExtend 64 ↔ x < -2147483648 ∨ 2147483647 < x := by
  rw [ne_eq, ← BitVec.toInt_inj, BitVec.toInt_signExtend_of_le (by decide), BitVec.toInt_ofInt, BitVec.toInt_ofInt,
    Int.bmod_def, Int.bmod_def]
  norm_num
  split <;> split <;> omega

/-- The overflow of a multiplication: the signed product is no signed word (R339). -/
theorem mulOverflow_eq (a b : Word) :
    (mulSigned a b != ((mulSigned a b).setWidth 32).signExtend 64) = outOfWord (a.toInt * b.toInt) := by
  have lower := BitVec.le_toInt_mul_toInt (x := a) (y := b)
  have upper := BitVec.toInt_mul_toInt_le (x := a) (y := b)
  rw [mulSigned_low, mulSigned_eq_ofInt, outOfWord, Bool.eq_iff_iff, bne_iff_ne,
    ofInt_ne_signExtend_iff (by simpa using lower) (by simpa using upper)]
  simp

/-- `mullw` as an integer product (R339). -/
theorem execMullw_eq (s : State) (rD rA rB : Reg) (oe rc : Bool) : execMullw rD rA rB oe rc s =
    (s.overflowIf oe (outOfWord ((s.readGpr rA).toInt * (s.readGpr rB).toInt))).putResult rD
      (BitVec.ofInt 32 ((s.readGpr rA).toInt * (s.readGpr rB).toInt)) rc := by
  rw [← mulOverflow_eq, ← mulSigned_low]
  rfl

/-- Settles O5: each form writes a part of the product; only `mullw` has an overflow. -/
theorem multiplications : Obligations.Multiplications := by
  intro s rD rA rB imm oe rc a b low high highU
  have result (i : Instr) (v w : Word) (eq : v = w) (rc : Bool) (run : exec i s = s.putResult rD v rc) :
      ∃ t, exec i s = .next t ∧ s.integerDone t rD w ∧ t.xer = s.xer ∧ s.recorded t rc w := by
    exact exec_putResult_spec (eq ▸ run)
  refine ⟨?_, ?_, result _ _ _ (mulSigned_high a b) rc rfl, result _ _ _ (mulUnsigned_high a b) rc rfl⟩
  · rw [← toInt_sext16 imm]
    obtain ⟨t, run, done, xer, -, cr⟩ := result (.mulli rD rA imm) _ _ (mulSigned_low a (sext16 imm)) false rfl
    exact ⟨t, run, done, xer, cr⟩
  · rw [show exec (.mullw rD rA rB oe rc) s = execMullw rD rA rB oe rc s from rfl, execMullw_eq]
    exact s.putResult_overflowIf_spec ..

end Sys2Proof.Machine
end

section
/-! SUPPORT. Proofs/Divisions.lean: the divisions and their undefined cases (O6). -/

namespace Sys2Proof.Machine

/-- The signed quotient, truncated toward zero (R342). -/
theorem sdiv_eq_ofInt (a b : Word) : a.sdiv b = BitVec.ofInt 32 (a.toInt.tdiv b.toInt) := by
  rw [← BitVec.toInt_inj, BitVec.toInt_sdiv, BitVec.toInt_ofInt]

/-- The unsigned quotient (R343). -/
theorem udiv_eq_ofNat (a b : Word) : a / b = BitVec.ofNat 32 (a.toNat / b.toNat) := by
  rw [← BitVec.toNat_udiv, BitVec.ofNat_toNat, BitVec.setWidth_eq]

section
variable {s : State} {rA rB : Reg} (rD : Reg) (oe rc : Bool)

theorem execDivw_defined (h : ¬(s.readGpr rB = 0 ∨ (s.readGpr rA = 0x80000000 ∧ s.readGpr rB = 0xFFFFFFFF))) :
    execDivw rD rA rB oe rc s =
      s.putQuotient rD (BitVec.ofInt 32 ((s.readGpr rA).toInt.tdiv (s.readGpr rB).toInt)) oe rc :=
  (if_neg h).trans (by rw [sdiv_eq_ofInt])

theorem execDivw_undefined (h : s.readGpr rB = 0 ∨ (s.readGpr rA = 0x80000000 ∧ s.readGpr rB = 0xFFFFFFFF)) :
    ∃ q c, execDivw rD rA rB oe rc s = s.putUndefinedQuotient rD q c oe rc := ⟨_, _, if_pos h⟩

theorem execDivwu_defined (h : s.readGpr rB ≠ 0) : execDivwu rD rA rB oe rc s =
    s.putQuotient rD (BitVec.ofNat 32 ((s.readGpr rA).toNat / (s.readGpr rB).toNat)) oe rc :=
  (if_neg h).trans (by rw [udiv_eq_ofNat])

theorem execDivwu_undefined (h : s.readGpr rB = 0) :
    ∃ q c, execDivwu rD rA rB oe rc s = s.putUndefinedQuotient rD q c oe rc := ⟨_, _, if_pos h⟩

end

/-- Settles O6: a defined quotient is a result without overflow, an undefined one a free result with it. -/
theorem divisions : Obligations.Divisions := by
  intro s rD rA rB oe rc a b undef quotient
  have defined (i : Instr) (q : Word) (run : exec i s = s.putQuotient rD q oe rc) :
      ∃ t, exec i s = .next t ∧ quotient t q := by
    rw [run]
    exact s.putResult_overflowIf_spec rD q oe false rc
  have undefined (i : Instr) (run : ∃ q c, exec i s = s.putUndefinedQuotient rD q c oe rc) :
      ∃ t, exec i s = .next t ∧ undef t := by
    obtain ⟨q, c, run⟩ := run
    rw [run]
    exact s.putUndefinedQuotient_spec rD q c oe rc
  exact ⟨fun nonzero inRange => defined _ _ (execDivw_defined rD oe rc (not_or.2 ⟨nonzero, inRange⟩)),
    fun h => undefined _ (execDivw_undefined rD oe rc h),
    fun nonzero => defined _ _ (execDivwu_defined rD oe rc nonzero),
    fun zero => undefined _ (execDivwu_undefined rD oe rc zero)⟩

end Sys2Proof.Machine
end

section
/-! SUPPORT. Proofs/LogicalInstructions.lean: the logical instructions bit by bit, the sign extensions and the count
of leading zeros (O8). -/

namespace Sys2Proof.Machine

/-! ### Bits of a word (R11) -/

theorem beBit_and (x y : Word) (k : Nat) : beBit (x &&& y) k = (beBit x k && beBit y k) := BitVec.getMsbD_and

theorem beBit_or (x y : Word) (k : Nat) : beBit (x ||| y) k = (beBit x k || beBit y k) := BitVec.getMsbD_or

theorem beBit_xor (x y : Word) (k : Nat) : beBit (x ^^^ y) k = (beBit x k != beBit y k) := BitVec.getMsbD_xor

theorem beBit_not (x : Word) {k : Nat} (hk : k < 32) : beBit (~~~x) k = !beBit x k := by
  rw [beBit, BitVec.getMsbD_not, decide_eq_true hk, Bool.true_and, beBit]

/-- The immediate in the low half, with zeros above it. -/
theorem zext16_eq_append (d : BitVec 16) : zext16 d = 0#16 ++ d := BitVec.setWidth_eq_append (by decide)

/-! ### Sign extension (R375, R376) -/

/-- A low part of a word, extended with its sign: the signed residue of the word. -/
theorem signExtend_setWidth (a : Word) {n m : Nat} (hn : n ≤ 32) (hm : m = 2 ^ n) :
    (a.setWidth n).signExtend 32 = BitVec.ofInt 32 (a.toInt.bmod m) := by
  rw [hm, a.toInt_eq_toNat_bmod, Int.bmod_bmod_of_dvd (pow_dvd_pow 2 hn), ← BitVec.toInt_setWidth]
  rfl

/-! ### Leading zeros (R377) -/

theorem leadingZeros_le (w : Word) : leadingZeros w ≤ 32 := by
  unfold leadingZeros
  split <;> omega

theorem leadingZeros_of_ne_zero {w : Word} (h : w ≠ 0) : leadingZeros w = 31 - Nat.log2 w.toNat := if_neg h

theorem log2_lt_of_ne_zero {w : Word} (h : w ≠ 0) : Nat.log2 w.toNat < 32 :=
  (Nat.log2_lt (BitVec.toNat_ne_iff_ne.2 h)).2 w.isLt

theorem beBit_eq_testBit (w : Word) {k : Nat} (hk : k < 32) : beBit w k = w.toNat.testBit (31 - k) := by
  rw [beBit, BitVec.getMsbD, decide_eq_true hk, Bool.true_and]
  rfl

/-- The bits before the count are zeros: their weights exceed the word. -/
theorem beBit_of_lt_leadingZeros (w : Word) {k : Nat} (hk : k < leadingZeros w) : beBit w k = false := by
  have inWord := lt_of_lt_of_le hk (leadingZeros_le w)
  by_cases zero : w = 0
  · rw [zero]
    exact BitVec.getMsbD_zero
  · rw [leadingZeros_of_ne_zero zero] at hk
    rw [beBit_eq_testBit w inWord]
    exact Nat.testBit_lt_two_pow (lt_of_lt_of_le Nat.lt_log2_self (Nat.pow_le_pow_right Nat.two_pos (by omega)))

/-- The bit at the count is the word's first one. -/
theorem beBit_leadingZeros {w : Word} (h : leadingZeros w < 32) : beBit w (leadingZeros w) = true := by
  have nonzero : w ≠ 0 := by
    rintro rfl
    exact absurd h (by decide)
  have place := log2_lt_of_ne_zero nonzero
  rw [beBit_eq_testBit w h, leadingZeros_of_ne_zero nonzero,
    show 31 - (31 - Nat.log2 w.toNat) = Nat.log2 w.toNat by omega]
  exact Nat.testBit_log2 (BitVec.toNat_ne_iff_ne.2 nonzero)

/-- Settles O8: each form writes a result that is known bit by bit, or as a number. -/
theorem logicalInstructions : Obligations.LogicalInstructions := by
  constructor
  · intro s rS rA rB imm rc a b low high done
    have bitwise {i : Instr} {v c : Word} {f : Bool → Bool → Bool} {record : Bool}
        (run : exec i s = s.putResult rA v record) (bits : ∀ k < 32, beBit v k = f (beBit a k) (beBit c k)) :
        done i c f record := by
      obtain ⟨t, next, integer, xer, recorded⟩ := exec_putResult_spec run
      exact ⟨t, v, next, integer, xer, recorded, bits⟩
    clear_value done
    have zext : zext16 imm = low := zext16_eq_append imm
    refine ⟨bitwise rfl fun k _ => ?_, bitwise rfl fun k _ => beBit_and a high k, bitwise rfl fun k _ => ?_,
      bitwise rfl fun k _ => beBit_or a high k, bitwise rfl fun k _ => ?_, bitwise rfl fun k _ => beBit_xor a high k,
      bitwise rfl fun k _ => beBit_and a b k, bitwise rfl fun k _ => beBit_or a b k,
      bitwise rfl fun k _ => beBit_xor a b k, bitwise rfl fun k hk => ?_, bitwise rfl fun k hk => ?_,
      bitwise rfl fun k hk => ?_, bitwise rfl fun k hk => ?_, bitwise rfl fun k hk => ?_⟩
    · rw [zext, beBit_and]
    · rw [zext, beBit_or]
    · rw [zext, beBit_xor]
    · rw [beBit_not _ hk, beBit_and]
    · rw [beBit_not _ hk, beBit_or]
    · rw [beBit_not _ hk, beBit_xor]
      exact Bool.not_not _
    · rw [beBit_and, beBit_not _ hk]
    · rw [beBit_or, beBit_not _ hk]
  · intro s rS rA rc a byte half
    refine ⟨?_, ?_, ?_⟩
    · rw [show byte = (a.setWidth 8).signExtend 32 from (signExtend_setWidth a (by decide) (by norm_num)).symm]
      exact exec_putResult_spec rfl
    · rw [show half = (a.setWidth 16).signExtend 32 from (signExtend_setWidth a (by decide) (by norm_num)).symm]
      exact exec_putResult_spec rfl
    · obtain ⟨t, next, result⟩ := exec_putResult_spec (i := .cntlzw rS rA rc) (s := s) rfl
      exact ⟨t, leadingZeros a, next, leadingZeros_le a, fun _ => beBit_of_lt_leadingZeros a, beBit_leadingZeros,
        result⟩

end Sys2Proof.Machine
end

section
/-! SUPPORT. Proofs/RotatesAndShifts.lean: the rotates bit by bit, the shifts as powers of two (O9). -/

namespace Sys2Proof.Machine

/-! ### Rotates and masks (R380) -/

theorem beBit_rotl32 (x : Word) (n : BitVec 5) {k : Nat} (hk : k < 32) :
    beBit (rotl32 x n) k = beBit x ((k + n.toNat) % 32) := by
  rw [beBit, rotl32, BitVec.getMsbD_rotateLeft, decide_eq_true hk, Bool.true_and, Nat.add_comm, beBit]

theorem beBit_ones (k : Nat) : beBit (0xFFFFFFFF#32) k = decide (k < 32) :=
  BitVec.getMsbD_allOnes (v := 32)

/-- The mask has its ones from MB on and up to ME, or outside what lies between where MB > ME. -/
theorem beBit_maskBits (mb me : BitVec 5) {k : Nat} (hk : k < 32) : beBit (maskBits mb me) k = inMask mb me k := by
  have fromMb : beBit (0xFFFFFFFF#32 >>> mb.toNat) k = decide (mb.toNat ≤ k) := by
    rw [beBit, BitVec.getMsbD_ushiftRight, ← beBit, beBit_ones, Bool.eq_iff_iff]
    simp
    omega
  have toMe : beBit (0xFFFFFFFF#32 <<< (31 - me.toNat)) k = decide (k ≤ me.toNat) := by
    have := me.isLt
    rw [beBit, BitVec.getMsbD_shiftLeft, ← beBit, beBit_ones, decide_eq_decide]
    omega
  rw [maskBits, inMask]
  simp only [BitVec.le_def]
  split
  · rw [beBit_and, fromMb, toMe]
  · rw [beBit_or, fromMb, toMe, Bool.or_comm]

/-- A rotated word under a mask. -/
theorem beBit_rotl32_mask (x : Word) (n mb me : BitVec 5) {k : Nat} (hk : k < 32) :
    beBit (rotl32 x n &&& maskBits mb me) k = if inMask mb me k then beBit x ((k + n.toNat) % 32) else false := by
  rw [beBit_and, beBit_rotl32 x n hk, beBit_maskBits mb me hk]
  cases inMask mb me k <;> simp

/-- A rotated word inserted under a mask. -/
theorem beBit_rotl32_insert (x y : Word) (n mb me : BitVec 5) {k : Nat} (hk : k < 32) :
    beBit ((rotl32 x n &&& maskBits mb me) ||| (y &&& ~~~(maskBits mb me))) k =
      if inMask mb me k then beBit x ((k + n.toNat) % 32) else beBit y k := by
  rw [beBit_or, beBit_rotl32_mask x n mb me hk, beBit_and, beBit_not _ hk, beBit_maskBits mb me hk]
  cases inMask mb me k <;> simp

/-! ### Shifts (R390, R391) -/

theorem shiftAmount_eq (w : Word) : shiftAmount w = w.toNat % 64 := by
  rw [shiftAmount, BitVec.extractLsb'_toNat, Nat.shiftRight_zero]

theorem shiftLeft_eq_ofNat (a : Word) (n : Nat) : a <<< n = BitVec.ofNat 32 (a.toNat * 2 ^ n) := by
  rw [← BitVec.toNat_inj, BitVec.toNat_shiftLeft, Nat.shiftLeft_eq, BitVec.toNat_ofNat]

theorem ushiftRight_eq_ofNat (a : Word) (n : Nat) : a >>> n = BitVec.ofNat 32 (a.toNat / 2 ^ n) := by
  rw [← Nat.shiftRight_eq_div_pow, ← BitVec.toNat_ushiftRight, BitVec.ofNat_toNat, BitVec.setWidth_eq]

/-! ### Algebraic shifts (R392, R393) -/

theorem shiftAlgebraic_fst (a : Word) (n : Nat) : (shiftAlgebraic a n).1 = BitVec.ofInt 32 (a.toInt / 2 ^ n) := by
  rw [show (2 : Int) ^ n = ((2 ^ n : Nat) : Int) by push_cast; rfl, ← Int.shiftRight_eq_div_pow,
    ← BitVec.toInt_sshiftRight, BitVec.ofInt_toInt, shiftAlgebraic]

/-- The bits that a shift right drops are the remainder. -/
theorem toNat_droppedBits (a : Word) (n : Nat) : (a &&& ~~~(0xFFFFFFFF#32 <<< n)).toNat = a.toNat % 2 ^ n := by
  refine Nat.eq_of_testBit_eq fun j => ?_
  rw [Nat.testBit_mod_two_pow, BitVec.testBit_toNat, BitVec.testBit_toNat, BitVec.getLsbD_and]
  by_cases hj : j < 32
  · rw [BitVec.getLsbD_not, BitVec.getLsbD_shiftLeft, show 0xFFFFFFFF#32 = BitVec.allOnes 32 from rfl,
      BitVec.getLsbD_allOnes, Bool.and_comm, decide_eq_true hj, decide_eq_true (show j - n < 32 by omega)]
    simp
  · rw [BitVec.getLsbD_of_ge a j (by omega), Bool.false_and, Bool.and_false]

/-- A negative word and its bits as a number are multiples of the same powers of two up to `2 ^ 32`, and of no
greater one. -/
theorem toInt_emod_eq_zero_iff {a : Word} (negative : a.toInt < 0) (n : Nat) :
    a.toInt % 2 ^ n = 0 ↔ a.toNat % 2 ^ n = 0 := by
  obtain ⟨value, positive⟩ : a.toInt = (a.toNat : Int) - 2 ^ 32 ∧ 0 < a.toNat := by
    have := a.toInt_eq_toNat_cond
    split at this <;> omega
  have bound := a.isLt
  rw [← Int.dvd_iff_emod_eq_zero, ← Nat.dvd_iff_mod_eq_zero, ← Int.natCast_dvd_natCast]
  push_cast
  rcases Nat.lt_or_ge 32 n with beyond | within
  · have weight : (2 : Int) ^ 33 ≤ 2 ^ n := pow_le_pow_right₀ (by decide) beyond
    refine iff_of_false (fun h => ?_) (fun h => ?_)
    · have := Int.le_of_dvd (by omega) ((Int.dvd_neg).2 h)
      omega
    · have := Int.le_of_dvd (by omega) h
      omega
  · rw [value]
    exact dvd_sub_left (pow_dvd_pow 2 within)

/-- The carry: a negative operand was no multiple of the power of two. -/
theorem shiftAlgebraic_snd (a : Word) (n : Nat) :
    (shiftAlgebraic a n).2 = (decide (a.toInt < 0) && decide (a.toInt % 2 ^ n ≠ 0)) := by
  have sign : beBit a 0 = decide (a.toInt < 0) := a.msb_eq_toInt
  have dropped : (a &&& ~~~(0xFFFFFFFF#32 <<< n) != 0) = decide (a.toNat % 2 ^ n ≠ 0) := by
    rw [← toNat_droppedBits, Bool.eq_iff_iff, bne_iff_ne, decide_eq_true_eq, ne_eq, ← BitVec.toNat_inj]
    rfl
  rw [shiftAlgebraic, sign, dropped]
  by_cases negative : a.toInt < 0
  · simp only [ne_eq, toInt_emod_eq_zero_iff negative n]
  · rw [decide_eq_false negative, Bool.false_and, Bool.false_and]

/-- `putAlgebraic`: the shifted operand, its carry, the record, nothing else. -/
theorem putAlgebraic_spec (s : State) (rA : Reg) (r : Word × Bool) (rc : Bool) :
    ∃ t, s.putAlgebraic rA r rc = .next t ∧ s.integerDone t rA r.1 ∧
      (∀ j, j ≠ 2 → beBit t.xer j = beBit s.xer j) ∧ beBit t.xer 2 = r.2 ∧ s.recorded t rc r.1 := by
  obtain ⟨t, run, done, xer, recorded⟩ := putResult_spec (s := s) (u := s.setCa r.2) rfl rA r.1 rc
  refine ⟨t, run, done, fun j hj => ?_, ?_, recorded⟩
  · rw [xer, xer_setCa, if_neg hj]
  · rw [xer, xer_setCa, if_pos rfl]

/-- Settles O9: each form writes a rotated word under a mask, or a product with or a quotient by a power of two. -/
theorem rotatesAndShifts : Obligations.RotatesAndShifts := by
  constructor
  · intro s rS rA rB sh mb me rc a m done
    have rotated (i : Instr) (v : Word) (n : Nat) (outside : Nat → Bool) (run : exec i s = s.putResult rA v rc)
        (bits : ∀ k < 32, beBit v k = if inMask mb me k then beBit a ((k + n) % 32) else outside k) :
        done i n outside := by
      obtain ⟨t, next, integer, xer, recorded⟩ := exec_putResult_spec run
      exact ⟨t, v, next, integer, xer, recorded, bits⟩
    have amount : ((s.readGpr rB).setWidth 5).toNat = m := BitVec.toNat_setWidth ..
    refine ⟨rotated _ _ _ _ rfl fun k => beBit_rotl32_mask a sh mb me, rotated _ _ _ _ rfl fun k hk => ?_,
      rotated _ _ _ _ rfl fun k => beBit_rotl32_insert a (s.readGpr rA) sh mb me⟩
    rw [beBit_rotl32_mask _ _ mb me hk, amount]
  · intro s rS rA rB sh rc a n left right algebraic
    have amount : shiftAmount (s.readGpr rB) = n := shiftAmount_eq _
    have shifted (i : Instr) (k : Nat) (run : exec i s = s.putAlgebraic rA (shiftAlgebraic a k) rc) :
        algebraic i k := by
      obtain ⟨t, next, spec⟩ := putAlgebraic_spec s rA (shiftAlgebraic a k) rc
      rw [shiftAlgebraic_fst, shiftAlgebraic_snd] at spec
      exact ⟨t, run.trans next, spec⟩
    refine ⟨?_, ?_, shifted _ _ rfl, ?_⟩
    · rw [show left = a <<< shiftAmount (s.readGpr rB) by rw [amount, shiftLeft_eq_ofNat]]
      exact exec_putResult_spec rfl
    · rw [show right = a >>> shiftAmount (s.readGpr rB) by rw [amount, ushiftRight_eq_ofNat]]
      exact exec_putResult_spec rfl
    · rw [← amount]
      exact shifted _ _ rfl

end Sys2Proof.Machine
end

section
/-! SUPPORT. Proofs/FpUnavailable.lean: floating-point instructions with MSR[FP] = 0 (O37). -/

namespace Sys2Proof

/-- The ten bits 21:30 of an XO form: OE, then the extended opcode (R272). -/
theorem xo10_encXO (a b c : BitVec 5) (oe : Bool) (xo : BitVec 9) (r : Bool) :
    xo10 (encXO a b c oe xo r) = (bit1 oe ++ xo).toNat := by
  have field : (encXO a b c oe xo r).extractLsb' 1 10 = bit1 oe ++ xo := by
    apply BitVec.eq_of_getLsbD_eq
    intro k hk
    simp only [encXO, BitVec.getLsbD_extractLsb', BitVec.getLsbD_append, hk, decide_true, Bool.true_and]
    by_cases low : k < 9
    · simp [low, show ¬ 1 + k < 1 by omega]
    · have : k = 9 := by omega
      subst this
      simp
  rw [xo10, field]

end Sys2Proof

namespace Sys2Proof.Machine

/-- The XO forms are integer instructions: with OE = 0 or 1 their ten bits are those of no floating-point access. -/
theorem needsFp_encXO {i : Instr} {a b c : Reg} {oe r : Bool} {xo : BitVec 9} (word : encode i = encXO a b c oe xo r)
    (h : (bit1 oe ++ xo).toNat ∉ [535, 567, 599, 631, 663, 695, 727, 759, 983]) : needsFp i = false := by
  have absent : [535, 567, 599, 631, 663, 695, 727, 759, 983].contains (bit1 oe ++ xo).toNat = false := by
    simpa using h
  unfold needsFp
  dsimp only
  rw [word, primary_encXO, xo10_encXO, absent]
  rfl

/-- An instruction that needs floating point begins with the test of MSR[FP] (R420). -/
theorem exec_eq_needFp (i : Instr) (h : needsFp i = true) (s : State) : ∃ k, exec i s = s.needFp k := by
  cases i with
  | fadd | fadds | fsub | fsubs | fmul | fmuls | fdiv | fdivs | fres | frsqrte | fsel | fmadd | fmadds | fmsub | fmsubs
    | fnmadd | fnmadds | fnmsub | fnmsubs | frsp | fctiw | fctiwz | fcmpu | fcmpo | mffs | mcrfs | mtfsfi | mtfsf | mtfsb0
    | mtfsb1 | fmr | fneg | fabs | fnabs | lfs | lfsx | lfsu | lfsux | lfd | lfdx | lfdu | lfdux | stfs | stfsx | stfsu
    | stfsux | stfd | stfdx | stfdu | stfdux | stfiwx => exact ⟨_, rfl⟩
  | add _ _ _ oe | subf _ _ _ oe | addc _ _ _ oe | subfc _ _ _ oe | adde _ _ _ oe | subfe _ _ _ oe | addme _ _ oe
    | subfme _ _ oe | addze _ _ oe | subfze _ _ oe | neg _ _ oe | mullw _ _ _ oe | divw _ _ _ oe | divwu _ _ _ oe =>
    cases oe <;> rw [needsFp_encXO rfl (by decide)] at h <;> cases h
  | mulhw | mulhwu =>
    rw [needsFp_encXO rfl (by decide)] at h
    cases h
  | b | bc =>
    simp [needsFp, encode, primary_b, primary_bc] at h
  | sc => exact absurd h (by decide)
  | _ => simp [needsFp, encode] at h

end Sys2Proof.Machine

open Sys2Proof.Machine in
/-- Settles O37: such an instruction begins with the test, which with MSR[FP] = 0 ends it in this exception. -/
theorem fpUnavailable : Obligations.FpUnavailable := by
  intro s i off needs
  obtain ⟨k, run⟩ := exec_eq_needFp i needs s
  have taken : exec i s = .next s.takeFpUnavailable := by
    rw [run, State.needFp, if_neg (by rw [off]; decide)]
  exact ⟨_, taken, State.tookException_takeException _ _ _ _⟩
end

section
/-! SUPPORT. Proofs/FloatCompletion.lean: the state a floating-point instruction has made when its completion begins
(R429), and what follows of it for the enabled exception (O17). -/

namespace Sys2Proof.Machine

/-! ### The state before the completion -/

/-- What an arithmetic operation has written when it completes. -/
def State.withFloat (s : State) (single : Bool) (frD : Reg) (r : FpOut) : State :=
  let fr := s.bitOrFree r.fr
  let fi := fr.2.bitOrFree r.fi
  let s1 := { fi.2 with
    fpscr := fpSettle s.fpscr (fpscrStatus (s.fpscr ||| r.exc) (r.write.map Prod.snd) fr.1 fi.1) }
  match r.write with
  | some (d, _) => s1.putFpr single frD d
  | none => s1

theorem State.putFloat_eq (s : State) (single : Bool) (frD : Reg) (r : FpOut) (rc : Bool) :
    s.putFloat single frD r rc = (s.withFloat single frD r).fpDone rc := rfl

/-- What a single-precision instruction has written when it completes with an operand that is no single. -/
def State.withFreeSingle (s : State) (frD : Reg) (could : Word) : State :=
  let d := s.drawDword
  let f := d.2.drawWord
  let m := could ||| 0x0007F000
  { f.2 with fpscr := fpSettle s.fpscr ((s.fpscr &&& ~~~m) ||| (f.1 &&& m)) }.putFpr true frD d.1

theorem State.putSingle_eq (s : State) (frD : Reg) (ops : List Dword) (could : Word) (r : FpOut) (rc : Bool) :
    s.putSingle frD ops could r rc =
      (if ops.any notSingle then s.withFreeSingle frD could else s.withFloat true frD r).fpDone rc := by
  unfold State.putSingle
  split <;> rfl

/-- What a conversion to an integer has written when it completes. -/
def State.withInt (s : State) (frD : Reg) (r : IntOut) : State :=
  match r.write with
  | some v =>
    let h := s.drawWord
    let c := h.2.drawWord
    { c.2 with fpscr := fpSettle s.fpscr (fpscrStatus (s.fpscr ||| r.exc) (some (c.1.setWidth 5)) r.fr r.fi) }.writeFpr
      frD (h.1 ++ v)
  | none => { s with fpscr := fpSettle s.fpscr (fpscrStatus (s.fpscr ||| r.exc) none r.fr r.fi) }

theorem State.putInt_eq (s : State) (frD : Reg) (r : IntOut) (rc : Bool) :
    s.putInt frD r rc = (s.withInt frD r).fpDone rc := by
  obtain ⟨exc, write, fr, fi⟩ := r
  cases write <;> rfl

/-! ### Operations that do not look at MSR -/

/-- The state with another MSR. -/
def State.withMsr (s : State) (m : Word) : State := { s with msr := m }

theorem State.withMsr_self (s : State) : s.withMsr s.msr = s := rfl

theorem State.msrFE_withMsr (s : State) (m : Word) : (s.withMsr m).msrFE = (beBit m 20 || beBit m 23) := rfl

/-- `k` is work that neither looks at MSR nor moves pc, and then the completion (R429). -/
def FpOperation (k : State → Result) : Prop :=
  ∃ (work : State → State) (rc : Bool), (∀ s, k s = (work s).fpDone rc) ∧
    ∀ s, (work s).pc = s.pc ∧ ∀ m, work (s.withMsr m) = (work s).withMsr m

/-- The operands of an operation, which do not look at MSR. -/
def IgnoresMsr {α : Type} (r : State → α) : Prop := ∀ s m, r (s.withMsr m) = r s

theorem State.withFloat_msr (s : State) (single : Bool) (frD : Reg) (r : FpOut) (m : Word) :
    (s.withMsr m).withFloat single frD r = (s.withFloat single frD r).withMsr m := by
  obtain ⟨exc, write, fr, fi⟩ := r
  cases write <;> cases fr <;> cases fi <;> rfl

theorem State.withFloat_pc (s : State) (single : Bool) (frD : Reg) (r : FpOut) :
    (s.withFloat single frD r).pc = s.pc := by
  obtain ⟨exc, write, fr, fi⟩ := r
  cases write <;> cases fr <;> cases fi <;> rfl

theorem FpOperation.putFloat {r : State → FpOut} (hr : IgnoresMsr r) (single : Bool) (frD : Reg) (rc : Bool) :
    FpOperation fun s => s.putFloat single frD (r s) rc := by
  refine ⟨fun s => s.withFloat single frD (r s), rc, fun _ => rfl, fun s => ⟨s.withFloat_pc .., fun m => ?_⟩⟩
  dsimp only
  rw [hr, State.withFloat_msr]

theorem FpOperation.putSingle {ops : State → List Dword} {r : State → FpOut} (hops : IgnoresMsr ops)
    (hr : IgnoresMsr r) (frD : Reg) (could : Word) (rc : Bool) :
    FpOperation fun s => s.putSingle frD (ops s) could (r s) rc := by
  refine ⟨_, rc, fun s => s.putSingle_eq .., fun s => ⟨?_, fun m => ?_⟩⟩
  · split
    · rfl
    · exact s.withFloat_pc ..
  · rw [hops, hr]
    split
    · rfl
    · exact s.withFloat_msr ..

theorem FpOperation.putInt {r : State → IntOut} (hr : IgnoresMsr r) (frD : Reg) (rc : Bool) :
    FpOperation fun s => s.putInt frD (r s) rc := by
  refine ⟨_, rc, fun s => s.putInt_eq .., fun s => ⟨?_, fun m => ?_⟩⟩
  · unfold State.withInt
    split <;> rfl
  · rw [hr]
    unfold State.withInt
    split <;> rfl

theorem FpOperation.putFloatCompare {c : State → BitVec 4} {exc : State → Word} (hc : IgnoresMsr c)
    (he : IgnoresMsr exc) (crfD : BitVec 3) (rc : Bool) :
    FpOperation fun s => s.putFloatCompare crfD (c s) (exc s) rc := by
  refine ⟨_, false, fun s => rfl, fun s => ⟨?_, fun m => ?_⟩⟩
  · cases rc <;> rfl
  · rw [hc, he]
    cases rc <;> rfl

theorem FpOperation.putMove {d : State → Dword} (hd : IgnoresMsr d) (frD : Reg) (rc : Bool) :
    FpOperation fun s => s.putMove frD (d s) rc := by
  refine ⟨fun s => s.writeFpr frD (d s), rc, fun _ => rfl, fun s => ⟨rfl, fun m => ?_⟩⟩
  dsimp only
  rw [hd]
  rfl

theorem FpOperation.putFpscr {v : State → Word} (hv : IgnoresMsr v) (m : Word) (settles rc : Bool) :
    FpOperation fun s => s.putFpscr m (v s) settles rc := by
  refine ⟨_, rc, fun _ => rfl, fun s => ⟨rfl, fun m => ?_⟩⟩
  rw [hv]
  rfl

theorem FpOperation.mffs (frD : Reg) (rc : Bool) :
    FpOperation fun s => s.drawWord.2.putMove frD (s.drawWord.1 ++ s.fpscr) rc :=
  ⟨fun s => s.drawWord.2.writeFpr frD (s.drawWord.1 ++ s.fpscr), rc, fun _ => rfl, fun _ => ⟨rfl, fun _ => rfl⟩⟩

theorem FpOperation.mcrfs (crfD crfS : BitVec 3) :
    FpOperation fun s => State.fpDone { s.setCrField crfD.toNat (getField4 s.fpscr crfS.toNat) with
      fpscr := fpSummary (s.fpscr &&& ~~~(fpSticky &&& setField4 0 crfS.toNat 0xF)) } false :=
  ⟨_, _, fun _ => rfl, fun _ => ⟨rfl, fun _ => rfl⟩⟩

theorem FpOperation.mtfsb1 (crbD : BitVec 5) (rc : Bool) :
    FpOperation fun s => State.fpDone { s with
      fpscr := fpSettle s.fpscr (s.fpscr ||| (beMask crbD.toNat &&& fpWritable)) } rc :=
  ⟨_, _, fun _ => rfl, fun _ => ⟨rfl, fun _ => rfl⟩⟩

/-- Every instruction of primary opcode 59 or 63 is such an operation, with MSR[FP] = 1. -/
theorem exec_fpOperation {i : Instr} (h : primary (encode i) = 59 ∨ primary (encode i) = 63) :
    ∃ k, FpOperation k ∧ ∀ s, exec i s = s.needFp (k s) := by
  cases i with
  | fadd | fsub | fmul | fdiv | frsqrte | fmadd | fmsub | fnmadd | fnmsub | frsp | fres =>
    exact ⟨_, .putFloat (fun _ _ => rfl) .., fun _ => rfl⟩
  | fadds | fsubs | fmuls | fdivs | fmadds | fmsubs | fnmadds | fnmsubs =>
    exact ⟨_, .putSingle (fun _ _ => rfl) (fun _ _ => rfl) .., fun _ => rfl⟩
  | fctiw | fctiwz => exact ⟨_, .putInt (fun _ _ => rfl) .., fun _ => rfl⟩
  | fcmpu | fcmpo => exact ⟨_, .putFloatCompare (fun _ _ => rfl) (fun _ _ => rfl) .., fun _ => rfl⟩
  | fsel | fmr | fneg | fabs | fnabs => exact ⟨_, .putMove (fun _ _ => rfl) .., fun _ => rfl⟩
  | mtfsf | mtfsfi | mtfsb0 => exact ⟨_, .putFpscr (fun _ _ => rfl) .., fun _ => rfl⟩
  | mffs => exact ⟨_, .mffs .., fun _ => rfl⟩
  | mcrfs => exact ⟨_, .mcrfs .., fun _ => rfl⟩
  | mtfsb1 => exact ⟨_, .mtfsb1 .., fun _ => rfl⟩
  | add | subf | addc | subfc | adde | subfe | addme | subfme | addze | subfze | neg | mullw | mulhw | mulhwu | divw
    | divwu => simp [encode] at h
  | b | bc => simp [encode, primary_b, primary_bc] at h
  | sc => exact absurd h (by decide)
  | _ => simp [encode] at h

/-! ### The completion -/

theorem State.recordFpIf_withMsr (s : State) (rc : Bool) (m : Word) :
    (s.withMsr m).recordFpIf rc = (s.recordFpIf rc).withMsr m := by
  cases rc <;> rfl

theorem State.recordFpIf_fpscr (s : State) (rc : Bool) : (s.recordFpIf rc).fpscr = s.fpscr := by
  cases rc <;> rfl

/-- The completion takes the enabled exception at the instruction itself, or goes on (R770). -/
theorem State.fpDone_eq (s : State) (rc : Bool) : s.fpDone rc =
    if s.msrFE && beBit s.fpscr 1 then .next (({ s.recordFpIf rc with lastIa := s.pc } : State).takeFpEnabled s.pc)
    else .next (s.recordFpIf rc).advance := by
  cases rc <;> rfl

theorem State.fpDone_off {s : State} (off : s.msrFE = false) (rc : Bool) :
    s.fpDone rc = .next (s.recordFpIf rc).advance := by
  rw [State.fpDone_eq, off, Bool.false_and, if_neg Bool.false_ne_true]

theorem State.fpDone_noException {s : State} (fex : beBit s.fpscr 1 = false) (rc : Bool) :
    s.fpDone rc = .next (s.recordFpIf rc).advance := by
  rw [State.fpDone_eq, fex, Bool.and_false, if_neg Bool.false_ne_true]

theorem State.fpDone_enabled {s : State} (on : s.msrFE = true) (fex : beBit s.fpscr 1 = true) (rc : Bool) :
    s.fpDone rc = .next (({ s.recordFpIf rc with lastIa := s.pc } : State).takeFpEnabled s.pc) := by
  rw [State.fpDone_eq, on, fex, Bool.and_self, if_pos rfl]

/-- rfi and mtmsr: the test of FEX under the MSR they leave (R770). -/
theorem State.recheckFp_enabled {s : State} (on : s.msrFE = true) (fex : beBit s.fpscr 1 = true) :
    s.recheckFp = s.takeFpEnabled s.pc := if_pos (by rw [on, fex]; rfl)

theorem State.needFp_on {s : State} (on : beBit s.msr 18 = true) (k : Result) : s.needFp k = k := if_pos on

/-- Clearing FE0 and FE1 keeps FP. -/
theorem beBit_clearFe (w : Word) : beBit (w &&& 0xFFFFF6FF) 18 = beBit w 18 ∧ beBit (w &&& 0xFFFFF6FF) 20 = false ∧
    beBit (w &&& 0xFFFFF6FF) 23 = false := by
  refine ⟨?_, ?_, ?_⟩ <;> rw [beBit_and]
  · exact Bool.and_true _
  · exact Bool.and_false _
  · exact Bool.and_false _

/-- The instruction `s` runs has completed, having made `t`, and its exception is about to be taken: its address is
noted (R846; log entry 36). -/
def State.completedAs (s t : State) : State := { t with msr := s.msr, pc := s.pc, lastIa := s.pc }

/-- `t`, the outcome with FE0 = FE1 = 0, tells the outcome with one of them set. -/
theorem FpOperation.enabledException {k : State → Result} (op : FpOperation k) {s : State} {i : Instr}
    (run : ∀ s, exec i s = s.needFp (k s)) (fp : beBit s.msr 18 = true) (on : s.msrFE = true) :
    ∃ t, exec i (s.withMsr (s.msr &&& 0xFFFFF6FF)) = .next t ∧
      (beBit t.fpscr 1 = false → exec i s = .next (t.withMsr s.msr)) ∧
      (beBit t.fpscr 1 = true → exec i s = .next ((s.completedAs t).takeFpEnabled s.pc)) := by
  obtain ⟨work, rc, ends, same⟩ := op
  obtain ⟨pc, msr⟩ := same s
  obtain ⟨fp', fe0, fe1⟩ := beBit_clearFe s.msr
  have runs (m : Word) (hm : beBit m 18 = true) : exec i (s.withMsr m) = ((work s).withMsr m).fpDone rc := by
    rw [run, State.needFp_on (s := s.withMsr m) hm, ends, msr]
  have off : ((work s).withMsr (s.msr &&& 0xFFFFF6FF)).msrFE = false := by
    rw [State.msrFE_withMsr, fe0, fe1, Bool.or_self]
  have quiet := (runs _ (fp'.trans fp)).trans (State.fpDone_off off rc)
  rw [State.recordFpIf_withMsr] at quiet
  have self := runs s.msr fp
  rw [State.withMsr_self] at self
  have made : (((work s).recordFpIf rc).withMsr (s.msr &&& 0xFFFFF6FF)).advance.fpscr = (work s).fpscr :=
    State.recordFpIf_fpscr (work s) rc
  refine ⟨_, quiet, fun fex => ?_, fun fex => ?_⟩ <;> rw [made] at fex
  · rw [self, State.fpDone_noException (s := (work s).withMsr s.msr) fex, State.recordFpIf_withMsr]
    rfl
  · rw [self, State.fpDone_enabled (s := (work s).withMsr s.msr) on fex, State.recordFpIf_withMsr,
      show ((work s).withMsr s.msr).pc = s.pc from pc, State.completedAs, ← pc]
    cases rc <;> rfl

end Sys2Proof.Machine

open Sys2Proof Sys2Proof.Machine in
/-- Settles O17: an operation and its run with FE0 = FE1 = 0 begin the completion in states that differ in MSR. -/
theorem fpEnabledException : Obligations.FpEnabledException := by
  intro s i r fe enabled noted back moved
  refine ⟨fun opcode fp on => ?_, fun pr fex on => ?_, fun pr fex on => ?_⟩
  · obtain ⟨k, op, run⟩ := exec_fpOperation opcode
    obtain ⟨t, quiet, goes, taken⟩ := op.enabledException run fp on
    exact ⟨t, quiet, goes, fun fex => ⟨_, taken fex, State.tookException_takeException _ _ _ _⟩⟩
  · have run : exec .rfi s = .next back.recheckFp := if_neg (by rw [pr]; exact Bool.false_ne_true)
    exact ⟨_, run.trans (congrArg _ (State.recheckFp_enabled on fex)), State.tookException_takeException _ _ _ _⟩
  · have run : exec (.mtmsr r) s = .next moved.recheckFp := if_neg (by rw [pr]; exact Bool.false_ne_true)
    exact ⟨_, run.trans (congrArg _ (State.recheckFp_enabled on fex)), State.tookException_takeException _ _ _ _⟩
end

section
/-! SUPPORT. Proofs/FloatStatus.lean: which bits of FPSCR the writes of a floating-point operation change (41_float.md
R426 to R428). -/

namespace Sys2Proof.Machine

/-! ### Words bit by bit -/

theorem word_ext {x y : Word} (h : ∀ k < 32, beBit x k = beBit y k) : x = y :=
  BitVec.eq_of_getMsbD_eq fun k hk => h k hk

/-- Two words that agree in the bits of a mask. -/
theorem and_congr_of_beBit {x y m : Word} (h : ∀ k < 32, beBit m k = true → beBit x k = beBit y k) :
    x &&& m = y &&& m := by
  refine word_ext fun k hk => ?_
  rw [beBit_and, beBit_and]
  cases hm : beBit m k with
  | false => rw [Bool.and_false, Bool.and_false]
  | true => rw [h k hk hm]

/-- A bit of a field that ends at bit 19. -/
theorem beBit_field {n : Nat} (hn : n ≤ 20) (c : BitVec n) (k : Nat) :
    beBit (c.setWidth 32 <<< 12 : Word) k = (decide (20 - n ≤ k ∧ k < 20) && c.getMsbD (k - (20 - n))) := by
  have read : beBit (c.setWidth 32 <<< 12 : Word) k = (decide (k < 20) && c.getLsbD (31 - k - 12)) := by
    rw [beBit, BitVec.getMsbD, BitVec.getLsbD_shiftLeft, BitVec.getLsbD_setWidth]
    by_cases high : k < 20
    · simp [high, show k < 32 by omega, show ¬ 31 - k < 12 by omega, show 31 - k < 32 by omega,
        show 31 - k - 12 < 32 by omega]
    · simp only [high, decide_false, Bool.false_and, Bool.and_eq_false_iff, decide_eq_false_iff_not,
        Bool.not_eq_false', decide_eq_true_eq]
      omega
  rw [read]
  by_cases low : 20 - n ≤ k
  · have bit : 31 - k - 12 = n - 1 - (k - (20 - n)) := by omega
    by_cases high : k < 20
    · simp [low, high, BitVec.getMsbD, bit, show k - (20 - n) < n by omega]
    · simp [high]
  · simp [low, BitVec.getLsbD_of_ge c (31 - k - 12) (by omega)]

/-- A bit of such a field read back. -/
theorem extract_getMsbD {n : Nat} (hn : n ≤ 20) (w : Word) {j : Nat} (hj : j < n) :
    (w.extractLsb' 12 n).getMsbD j = beBit w (20 - n + j) := by
  rw [beBit, BitVec.getMsbD, BitVec.getMsbD, BitVec.getLsbD_extractLsb']
  have : 12 + (n - 1 - j) = 32 - 1 - (20 - n + j) := by omega
  simp [hj, this, show n - 1 - j < n by omega, show 20 - n + j < 32 by omega]

theorem field_ext {n : Nat} (hn : n ≤ 20) {w : Word} {c : BitVec n} (h : ∀ j < n, beBit w (20 - n + j) = c.getMsbD j) :
    w.extractLsb' 12 n = c :=
  BitVec.eq_of_getMsbD_eq fun j hj => (extract_getMsbD hn w hj).trans (h j hj)

/-! ### Settling (R428) -/

/-- Settling writes FX, FEX and VX only. -/
theorem beBit_fpSettle (old new : Word) {k : Nat} (hk : 3 ≤ k) : beBit (fpSettle old new) k = beBit new k := by
  rw [fpSettle, beBit_fpSummary _ _ (by omega) (by omega)]
  split
  · rw [beBit_setBeBit _ (by omega), if_neg (by omega)]
  · rfl

/-- FX is set if an exception bit is new. -/
theorem beBit_fpSettle_zero (old new : Word) :
    beBit (fpSettle old new) 0 = (beBit new 0 || (new &&& ~~~old &&& fpExceptions != 0)) := by
  rw [fpSettle, beBit_fpSummary _ _ (by omega) (by omega)]
  split
  next raised => rw [beBit_setBeBit _ (by omega), if_pos rfl, raised, Bool.or_true]
  next quiet => rw [Bool.eq_false_iff.2 quiet, Bool.or_false]

/-- The exception bits of `new` that are no bits of `old` are those of `exc`, if `new` adds `exc` to `old`. -/
theorem newExceptions_eq {old new exc : Word} (h : new &&& fpExceptions = (old ||| exc) &&& fpExceptions) :
    new &&& ~~~old &&& fpExceptions = exc &&& ~~~old &&& fpExceptions := by
  refine word_ext fun k hk => ?_
  have bit := congrArg (beBit · k) h
  simp only [beBit_and, beBit_or, beBit_not _ hk] at bit ⊢
  rw [Bool.and_right_comm, bit, Bool.and_right_comm, Bool.and_or_distrib_right, Bool.and_not_self, Bool.false_or]

/-! ### The status of an operation (R426, R427) -/

theorem beBit_fpscrStatus_fr (w : Word) (c : Option (BitVec 5)) (fr fi : Bool) :
    beBit (fpscrStatus w c fr fi) 13 = fr := by
  unfold fpscrStatus
  rw [beBit_setBeBit _ (by omega), if_neg (by omega), beBit_setBeBit _ (by omega), if_pos rfl]

theorem beBit_fpscrStatus_fi (w : Word) (c : Option (BitVec 5)) (fr fi : Bool) :
    beBit (fpscrStatus w c fr fi) 14 = fi := by
  unfold fpscrStatus
  rw [beBit_setBeBit _ (by omega), if_pos rfl]

/-- The bits of the word that FPRF is put in. -/
theorem beBit_withFprf (w : Word) (c : BitVec 5) {k : Nat} (hk : k < 32) :
    beBit ((w &&& (0xFFFE0FFF : Word)) ||| c.setWidth 32 <<< 12) k =
      if 15 ≤ k ∧ k < 20 then c.getMsbD (k - 15) else beBit w k := by
  have mask : beBit (0xFFFE0FFF : Word) k = !decide (15 ≤ k ∧ k < 20) := by interval_cases k <;> rfl
  rw [beBit_or, beBit_and, mask, beBit_field (by omega)]
  by_cases inside : 15 ≤ k ∧ k < 20 <;> simp [inside]

/-- The status is FR, FI and FPRF. -/
theorem beBit_fpscrStatus_other (w : Word) (c : Option (BitVec 5)) (fr fi : Bool) {k : Nat} (hk : k < 32)
    (outside : k < 13 ∨ 20 ≤ k) : beBit (fpscrStatus w c fr fi) k = beBit w k := by
  unfold fpscrStatus
  rw [beBit_setBeBit _ (by omega), if_neg (by omega), beBit_setBeBit _ (by omega), if_neg (by omega)]
  cases c with
  | none => rfl
  | some c => exact (beBit_withFprf w c hk).trans (if_neg (by omega))

theorem fpscrStatus_some (w : Word) (c : BitVec 5) (fr fi : Bool) {k : Nat} (inside : 15 ≤ k ∧ k < 20) :
    beBit (fpscrStatus w (some c) fr fi) k = c.getMsbD (k - 15) := by
  unfold fpscrStatus
  rw [beBit_setBeBit _ (by omega), if_neg (by omega), beBit_setBeBit _ (by omega), if_neg (by omega)]
  exact (beBit_withFprf w c (by omega)).trans (if_pos inside)

theorem fpscrStatus_none (w : Word) (fr fi : Bool) {k : Nat} (inside : 15 ≤ k ∧ k < 20) :
    beBit (fpscrStatus w none fr fi) k = beBit w k := by
  unfold fpscrStatus
  rw [beBit_setBeBit _ (by omega), if_neg (by omega), beBit_setBeBit _ (by omega), if_neg (by omega)]

/-! ### FPSCR after an operation that raises `exc` -/

/-- The exception bits that exist. -/
def exceptionsOnly (exc : Word) : Prop := exc &&& ~~~fpExceptions = 0

theorem exceptionsOnly.beBit {exc : Word} (h : exceptionsOnly exc) {k : Nat} (hk : k < 32)
    (hx : Machine.beBit fpExceptions k = false) : Machine.beBit exc k = false := by
  have bit := congrArg (Machine.beBit · k) h
  have zero : Machine.beBit (0 : Word) k = false := BitVec.getMsbD_zero
  simpa only [beBit_and, beBit_not _ hk, hx, Bool.not_false, Bool.and_true, zero] using bit

theorem exceptionBit_range {k : Nat} (hk : k < 32) (h : beBit fpExceptions k = true) : 3 ≤ k ∧ (k < 13 ∨ 20 ≤ k) := by
  revert h
  interval_cases k <;> decide

theorem controlBit_range {k : Nat} (hk : k < 32) (h : beBit (0xFF : Word) k = true) :
    24 ≤ k ∧ beBit fpExceptions k = false := by
  revert h
  interval_cases k <;> decide

/-- FPSCR settled after `exc` was added to it and then at most FR, FI and FPRF (bits 13 to 19) were written. -/
theorem fpSettle_adds {w new exc : Word} (ho : exceptionsOnly exc)
    (same : ∀ k < 32, k < 13 ∨ 20 ≤ k → beBit new k = beBit (w ||| exc) k) :
    fpSettle w new &&& fpExceptions = (w ||| exc) &&& fpExceptions ∧
      beBit (fpSettle w new) 0 = (beBit w 0 || (exc &&& ~~~w &&& fpExceptions != 0)) ∧
      fpSettle w new &&& 0xFF = w &&& 0xFF ∧ fpSummarized (fpSettle w new) := by
  have raised : new &&& fpExceptions = (w ||| exc) &&& fpExceptions :=
    and_congr_of_beBit fun k hk hm => same k hk (exceptionBit_range hk hm).2
  refine ⟨and_congr_of_beBit fun k hk hm => ?_, ?_, and_congr_of_beBit fun k hk hm => ?_, fpSummarized_fpSettle _ _⟩
  · obtain ⟨low, outside⟩ := exceptionBit_range hk hm
    rw [beBit_fpSettle _ _ low, same k hk outside]
  · rw [beBit_fpSettle_zero, newExceptions_eq raised, same 0 (by omega) (by omega), beBit_or,
      ho.beBit (by omega) (by decide), Bool.or_false]
  · obtain ⟨high, none⟩ := controlBit_range hk hm
    rw [beBit_fpSettle _ _ (by omega), same k hk (by omega), beBit_or, ho.beBit hk none, Bool.or_false]

end Sys2Proof.Machine
end

section
/-! SUPPORT. Proofs/FloatFields.lean: a double as its sign, exponent and fraction (41_float.md R421). -/

namespace Sys2Proof.Machine

/-! ### The fields of a double (R421) -/

/-- A double is its three fields. -/
theorem toNat_fields (d : Dword) : d.toNat = (dSign d).toNat * 2 ^ 63 + dExp d * 2 ^ 52 + dFrac d := by
  have sign : (dSign d).toNat = d.toNat / 2 ^ 63 := by
    have := d.isLt
    rw [dSign, show d.getMsbD 0 = d.msb from rfl, BitVec.msb_eq_decide]
    by_cases h : 2 ^ (64 - 1) ≤ d.toNat
    · rw [decide_eq_true h, Bool.toNat_true]
      omega
    · rw [decide_eq_false h, Bool.toNat_false]
      omega
  rw [sign, dExp, dFrac, BitVec.extractLsb'_toNat, BitVec.extractLsb'_toNat, Nat.shiftRight_eq_div_pow,
    Nat.shiftRight_zero]
  omega

theorem dExp_lt (d : Dword) : dExp d < 2048 := (d.extractLsb' 52 11).isLt

theorem dFrac_lt (d : Dword) : dFrac d < 2 ^ 52 := (d.extractLsb' 0 52).isLt

theorem isNan_iff (d : Dword) : isNan d = true ↔ dExp d = 2047 ∧ dFrac d ≠ 0 := by
  simp [isNan]

theorem unpack_isZero (d : Dword) : (unpack d).isZero = true ↔ dExp d = 0 ∧ dFrac d = 0 := by
  unfold unpack
  by_cases top : dExp d = 2047
  · by_cases h : dFrac d = 0 <;> simp [top, h, FpVal.isZero]
  by_cases bottom : dExp d = 0
  · by_cases h : dFrac d = 0 <;> simp [bottom, h, FpVal.isZero]
  · simp [top, bottom, FpVal.isZero]

/-- Two doubles of one sign and one magnitude. -/
theorem dword_ext {d e : Dword} (sign : d.getMsbD 0 = e.getMsbD 0)
    (magnitude : d.extractLsb' 0 63 = e.extractLsb' 0 63) : d = e := by
  refine BitVec.eq_of_getLsbD_eq fun i hi => ?_
  by_cases low : i < 63
  · simpa [low] using congrArg (BitVec.getLsbD · i) magnitude
  · have top : i = 63 := by omega
    subst top
    exact sign

/-! ### Signs (R466 to R469) -/

theorem xor_signBit (b : Dword) : b ^^^ 0x8000000000000000 = BitVec.ofBool (!b.getMsbD 0) ++ b.extractLsb' 0 63 := by
  refine dword_ext ?_ ?_
  · rw [BitVec.getMsbD_xor, BitVec.getMsbD_append]
    simp
  · rw [BitVec.extractLsb'_xor, extract_low _ _ (by omega), extract_all]
    exact BitVec.xor_zero

theorem and_signBit (b : Dword) : b &&& 0x7FFFFFFFFFFFFFFF = 0#1 ++ b.extractLsb' 0 63 := by
  refine dword_ext ?_ ?_
  · rw [BitVec.getMsbD_and, BitVec.getMsbD_append]
    simp
  · rw [BitVec.extractLsb'_and, extract_low _ _ (by omega), extract_all]
    exact BitVec.and_allOnes

theorem or_signBit (b : Dword) : b ||| 0x8000000000000000 = 1#1 ++ b.extractLsb' 0 63 := by
  refine dword_ext ?_ ?_
  · rw [BitVec.getMsbD_or, BitVec.getMsbD_append]
    simp
  · rw [BitVec.extractLsb'_or, extract_low _ _ (by omega), extract_all]
    exact BitVec.or_zero

/-- The test of `fsel`: a zero of either sign, or a positive value up to infinity (R440). -/
theorem selects_iff (a : Dword) : (!isNan a && (!dSign a || (unpack a).isZero)) = true ↔
    a.extractLsb' 0 63 = 0 ∨ (a.getMsbD 0 = false ∧ a.toNat ≤ 0x7FF0000000000000) := by
  have value := toNat_fields a
  have exponent := dExp_lt a
  have fraction := dFrac_lt a
  have zero : a.extractLsb' 0 63 = 0 ↔ a.toNat % 2 ^ 63 = 0 := by
    rw [← BitVec.toNat_inj, BitVec.extractLsb'_toNat, Nat.shiftRight_zero]
    exact Iff.rfl
  have nan : isNan a = false ↔ ¬(dExp a = 2047 ∧ dFrac a ≠ 0) := by rw [← isNan_iff, Bool.not_eq_true]
  rw [Bool.and_eq_true, Bool.or_eq_true, Bool.not_eq_true', Bool.not_eq_true', nan, unpack_isZero, zero, dSign]
  rw [dSign] at value
  cases sign : a.getMsbD 0 <;> rw [sign] at value <;> norm_num at value ⊢ <;> omega

end Sys2Proof.Machine
end

section
/-! SUPPORT. Proofs/FloatDelivery.lean: the completion of the moves and of the arithmetic instructions (O38, O39,
O40). -/

namespace Sys2Proof.Machine

/-! ### The completion of an operation that wrote an FPR and FPSCR (R429) -/

/-- `u` is `s` after work that wrote at most the FPR `frD` and FPSCR, and drew free values. -/
def State.fpWork (s u : State) (frD : Reg) : Prop :=
  u = { s with fpr := u.fpr, fprSingle := u.fprSingle, fpscr := u.fpscr, fresh := u.fresh } ∧ s.fprsBut u [frD]

/-- `t` and `u` hold the same FPRs and the same FPSCR. -/
structure State.SameFloat (t u : State) : Prop where
  fpr : ∀ q, t.readFpr q = u.readFpr q
  single : ∀ q, t.fprIsSingle q = u.fprIsSingle q
  fpscr : t.fpscr = u.fpscr

theorem State.sameFloat_recordFpIf (u : State) (rc : Bool) : (u.recordFpIf rc).advance.SameFloat u := by
  cases rc <;> exact ⟨fun _ => rfl, fun _ => rfl, rfl⟩

theorem State.fpWork.msrFE {s u : State} {frD : Reg} (work : s.fpWork u frD) (quiet : s.fpQuiet) : u.msrFE = false := by
  obtain ⟨-, fe0, fe1⟩ := quiet
  rw [work.1]
  exact Bool.or_eq_false_iff.2 ⟨fe0, fe1⟩

/-- Such work completes, records CR1 if asked to, and nothing else changes. -/
theorem State.fpWork.completes {s u : State} {frD : Reg} {rc : Bool} {i : Instr} (work : s.fpWork u frD)
    (quiet : s.fpQuiet) (run : exec i s = s.needFp (u.fpDone rc)) :
    ∃ t, exec i s = .next t ∧ s.fpDoneAs t frD rc ∧ t.SameFloat u := by
  have same := u.sameFloat_recordFpIf rc
  refine ⟨_, run.trans ((State.needFp_on quiet.1 _).trans (State.fpDone_off (work.msrFE quiet) rc)),
    ⟨?_, fun q hq => ?_, ?_⟩, same⟩
  · rw [work.1]
    cases rc <;> rfl
  · rw [same.fpr, same.single]
    exact work.2 q hq
  · rw [work.1]
    cases rc <;> rfl

/-! ### Moves (R440, R460, R466 to R469) -/

theorem State.fpWork_putFpr (s : State) (single : Bool) (frD : Reg) (v : Dword) (w : Word) (n : Nat) :
    s.fpWork (({ s with fpscr := w, fresh := n } : State).putFpr single frD v) frD := by
  refine ⟨rfl, fun q hq => ?_⟩
  have other : q ≠ frD := by simpa using hq
  exact ⟨State.readFpr_putFpr_other _ _ _ _ _ other, State.fprIsSingle_putFpr_other _ _ _ _ _ other⟩

/-- A move: the value, CR1, nothing else. -/
theorem State.move_done {s : State} {frD : Reg} {rc : Bool} {i : Instr} {v : Dword} {n : Nat} (quiet : s.fpQuiet)
    (run : exec i s = s.needFp (({ s with fresh := n } : State).putMove frD v rc)) :
    ∃ t, exec i s = .next t ∧ s.fpDoneAs t frD rc ∧ t.readFpr frD = v ∧ s.fpWrittenBy t frD false true ∧
      t.fpscr = s.fpscr := by
  obtain ⟨t, done, as, same⟩ := (s.fpWork_putFpr false frD v s.fpscr n).completes quiet run
  exact ⟨t, done, as, (same.fpr frD).trans (State.readFpr_putFpr_same _ _ _ _),
    (same.single frD).trans (State.fprIsSingle_putFpr_same _ _ _ _), same.fpscr⟩

/-- Settles O38: each is one move, of a value that the sign rules give bit by bit. -/
theorem fpMovesAndSelect : Obligations.FpMovesAndSelect := by
  intro s frD frA frB frC rc quiet b a done
  refine ⟨State.move_done (n := s.fresh) quiet rfl, ?_, ?_, ?_, ?_, ?_⟩
  · rw [← xor_signBit]
    exact State.move_done (n := s.fresh) quiet rfl
  · rw [← and_signBit]
    exact State.move_done (n := s.fresh) quiet rfl
  · rw [← or_signBit]
    exact State.move_done (n := s.fresh) quiet rfl
  · simp only [← selects_iff]
    exact State.move_done (n := s.fresh) quiet rfl
  · obtain ⟨t, run, as, value, written, fpscr⟩ := State.move_done (s := s) (i := .mffs frD rc)
      (v := s.drawWord.1 ++ s.fpscr) (n := s.fresh + 1) quiet rfl
    exact ⟨t, run, as, value ▸ BitVec.extractLsb'_append_eq_right .., written, fpscr⟩

/-! ### Arithmetic: the exception bits raised (R426) -/

section
variable {fmt : FpFormat} {w : Word}

/-- An operation raises exception bits only. -/
def FpOut.raisesExceptions (r : FpOut) : Prop := exceptionsOnly r.exc

theorem roundTo_raisesExceptions (flip : Bool) (v : FpVal) : (roundTo fmt w flip v).raisesExceptions := by
  have inexact (b : Bool) : exceptionsOnly (if b then fpXX else 0) := ite_and_eq_zero (by decide) (by decide)
  have underflow (b : Bool) : exceptionsOnly (if b then fpUX ||| fpXX else 0) :=
    ite_and_eq_zero (by decide) (by decide)
  have overflow : exceptionsOnly (fpOX ||| fpXX) := by unfold exceptionsOnly; decide
  have none : exceptionsOnly 0 := BitVec.zero_and
  cases v with
  | nan | inf | zero => exact none
  | num n m e =>
    unfold roundTo
    dsimp only
    split
    · split
      · exact or_and_eq_zero (by decide) (inexact _)
      · split <;> exact overflow
    split
    · split
      · exact or_and_eq_zero (by decide) (inexact _)
      split
      · exact underflow _
      split
      · split
        · exact underflow true
        · exact underflow _
      · exact underflow _
    · exact inexact _

theorem fpSelect_raisesExceptions (ops : List Dword) {vx : Word} {r : FpOut} (hv : exceptionsOnly vx)
    (hr : r.raisesExceptions) : (fpSelect fmt w ops vx r).raisesExceptions := by
  have raised : exceptionsOnly (vx ||| (if ops.any isSnan then fpVXSNAN else 0)) :=
    or_and_eq_zero hv (ite_and_eq_zero (by decide) (by decide))
  unfold fpSelect
  generalize (vx ||| (if ops.any isSnan then fpVXSNAN else 0)) = v at raised
  dsimp only
  split
  · split
    · exact BitVec.zero_and
    · exact hr
  split
  · exact raised
  split <;> exact raised

theorem zeroDivide_raisesExceptions (neg : Bool) : (zeroDivide w neg).raisesExceptions := by
  have zx : exceptionsOnly fpZX := by unfold exceptionsOnly; decide
  unfold zeroDivide
  split <;> exact zx

theorem fpAdd_raisesExceptions (minus : Bool) (a b : Dword) : (fpAdd fmt w minus a b).raisesExceptions :=
  fpSelect_raisesExceptions _ (ite_and_eq_zero (by decide) (by decide)) (roundTo_raisesExceptions _ _)

theorem fpMul_raisesExceptions (a c : Dword) : (fpMul fmt w a c).raisesExceptions :=
  fpSelect_raisesExceptions _ (ite_and_eq_zero (by decide) (by decide)) (roundTo_raisesExceptions _ _)

theorem fpDiv_raisesExceptions (a b : Dword) : (fpDiv fmt w a b).raisesExceptions := by
  refine fpSelect_raisesExceptions _ (ite_and_eq_zero (by decide) (ite_and_eq_zero (by decide) (by decide))) ?_
  split
  · exact zeroDivide_raisesExceptions _
  · exact roundTo_raisesExceptions _ _

theorem fpMulAdd_raisesExceptions (minus flip : Bool) (a c b : Dword) :
    (fpMulAdd fmt w minus flip a c b).raisesExceptions :=
  fpSelect_raisesExceptions _ (or_and_eq_zero (ite_and_eq_zero (by decide) (by decide))
    (ite_and_eq_zero (by decide) (by decide))) (roundTo_raisesExceptions _ _)

theorem fpRoundSingle_raisesExceptions (b : Dword) : (fpRoundSingle w b).raisesExceptions :=
  fpSelect_raisesExceptions _ BitVec.zero_and (roundTo_raisesExceptions _ _)

theorem estimateOut_raisesExceptions {keep : Word} (h : exceptionsOnly keep) (r : FpOut) :
    (estimateOut keep r).raisesExceptions := and_and_eq_zero h

end

/-! ### Arithmetic: what is delivered (R426 to R428) -/

section
variable {s : State} {single : Bool} {frD : Reg} {r : FpOut} {rc : Bool} {i : Instr}

theorem State.fpWork_withFloat : s.fpWork (s.withFloat single frD r) frD := by
  obtain ⟨exc, write, fr, fi⟩ := r
  have kept (w : Word) (n : Nat) : s.fpWork { s with fpscr := w, fresh := n } frD := ⟨rfl, fun _ _ => ⟨rfl, rfl⟩⟩
  cases write with
  | none => cases fr <;> cases fi <;> exact kept _ _
  | some d => cases fr <;> cases fi <;> exact s.fpWork_putFpr _ _ _ _ _

/-- FPSCR after an operation: some FR and FI, those of the operation where it defines them. -/
theorem State.withFloat_fpscr : ∃ fr fi, (∀ b, r.fr = some b → fr = b) ∧ (∀ b, r.fi = some b → fi = b) ∧
    (s.withFloat single frD r).fpscr =
      fpSettle s.fpscr (fpscrStatus (s.fpscr ||| r.exc) (r.write.map Prod.snd) fr fi) := by
  obtain ⟨exc, write, fr, fi⟩ := r
  refine ⟨(s.bitOrFree fr).1, ((s.bitOrFree fr).2.bitOrFree fi).1, ?_, ?_, ?_⟩
  · rintro b rfl
    rfl
  · rintro b rfl
    rfl
  · cases write <;> rfl

theorem State.withFloat_frD : match r.write with
    | some (d, _) => (s.withFloat single frD r).readFpr frD = d ∧ (s.withFloat single frD r).fprIsSingle frD = single
    | none => (s.withFloat single frD r).readFpr frD = s.readFpr frD ∧
        (s.withFloat single frD r).fprIsSingle frD = s.fprIsSingle frD := by
  obtain ⟨exc, write, fr, fi⟩ := r
  cases write with
  | none => cases fr <;> cases fi <;> exact ⟨rfl, rfl⟩
  | some d => exact ⟨State.readFpr_putFpr_same _ _ _ _, State.fprIsSingle_putFpr_same _ _ _ _⟩

/-- FPRF after an operation (R427). -/
theorem State.withFloat_fprf (ho : r.raisesExceptions) : (s.withFloat single frD r).fpscr.extractLsb' 12 5 =
    match r.write with
    | some (_, c) => c
    | none => s.fpscr.extractLsb' 12 5 := by
  obtain ⟨fr, fi, -, -, fpscr⟩ := State.withFloat_fpscr (s := s) (single := single) (frD := frD) (r := r)
  rw [fpscr]
  cases hw : r.write with
  | some p =>
    refine field_ext (by omega) fun j hj => ?_
    rw [beBit_fpSettle _ _ (by omega)]
    exact (fpscrStatus_some _ _ _ _ (by omega)).trans (congrArg _ (by omega))
  | none =>
    refine field_ext (by omega) fun j hj => ?_
    rw [extract_getMsbD (by omega) _ hj, beBit_fpSettle _ _ (by omega)]
    refine (fpscrStatus_none _ _ _ (by omega)).trans ?_
    rw [beBit_or, ho.beBit (by omega) (by interval_cases j <;> decide), Bool.or_false]

/-- The state after an operation holds what it delivers. -/
theorem State.withFloat_delivers (ho : r.raisesExceptions) : s.fpDelivered (s.withFloat single frD r) frD r := by
  have fprf := State.withFloat_fprf (s := s) (single := single) (frD := frD) ho
  have target := State.withFloat_frD (s := s) (single := single) (frD := frD) (r := r)
  obtain ⟨fr, fi, hfr, hfi, fpscr⟩ := State.withFloat_fpscr (s := s) (single := single) (frD := frD) (r := r)
  have adds := fpSettle_adds (w := s.fpscr) ho fun k hk outside =>
    beBit_fpscrStatus_other _ (r.write.map Prod.snd) fr fi hk outside
  rw [← fpscr] at adds
  refine ⟨?_, fun b hb => ?_, fun b hb => ?_, adds⟩
  · cases hw : r.write with
    | none =>
      rw [hw] at target fprf
      exact ⟨target.1, fprf⟩
    | some p =>
      rw [hw] at target fprf
      exact ⟨target.1, fprf⟩
  · rw [fpscr, beBit_fpSettle _ _ (by omega), beBit_fpscrStatus_fr, hfr b hb]
  · rw [fpscr, beBit_fpSettle _ _ (by omega), beBit_fpscrStatus_fi, hfi b hb]

/-- What is delivered does not tell states with the same FPRs and FPSCR apart. -/
theorem State.fpDelivered_congr {t u : State} (same : t.SameFloat u) (h : s.fpDelivered u frD r) :
    s.fpDelivered t frD r := by
  unfold State.fpDelivered at h ⊢
  rw [same.fpr, same.fpscr]
  exact h

theorem State.withFloat_writtenBy : s.fpWrittenBy (s.withFloat single frD r) frD single r.write.isSome := by
  have target := State.withFloat_frD (s := s) (single := single) (frD := frD) (r := r)
  unfold State.fpWrittenBy
  cases hw : r.write with
  | none => rw [hw] at target; exact target.2
  | some p => rw [hw] at target; exact target.2

/-- An arithmetic operation completes and delivers its outcome. -/
theorem State.putFloat_done (quiet : s.fpQuiet) (ho : r.raisesExceptions)
    (run : exec i s = s.needFp (s.putFloat single frD r rc)) :
    ∃ t, exec i s = .next t ∧ s.fpDoneAs t frD rc ∧ s.fpDelivered t frD r ∧
      s.fpWrittenBy t frD single r.write.isSome := by
  rw [State.putFloat_eq] at run
  obtain ⟨t, done, as, same⟩ := State.fpWork_withFloat.completes quiet run
  exact ⟨t, done, as, State.fpDelivered_congr same (State.withFloat_delivers ho),
    (same.single frD).trans State.withFloat_writtenBy⟩

/-- A single-precision operation completes; with operands that are singles it delivers its outcome. -/
theorem State.putSingle_done {ops : List Dword} {could : Word} (quiet : s.fpQuiet) (ho : r.raisesExceptions)
    (run : exec i s = s.needFp (s.putSingle frD ops could r rc)) :
    ∃ t, exec i s = .next t ∧ s.fpDoneAs t frD rc ∧
      ((∀ x ∈ ops, singleRepresentable x (unpack x) = true) →
        s.fpDelivered t frD r ∧ s.fpWrittenBy t frD true r.write.isSome) ∧
      ((∃ x ∈ ops, ¬singleRepresentable x (unpack x) = true) → t.fprIsSingle frD = true) := by
  have foreign : ops.any notSingle = true ↔ ∃ x ∈ ops, ¬singleRepresentable x (unpack x) = true := by
    simp [notSingle]
  rw [State.putSingle_eq] at run
  by_cases free : ops.any notSingle = true
  · rw [if_pos free] at run
    obtain ⟨t, done, as, same⟩ := (s.fpWork_putFpr true frD _ _ _).completes quiet run
    obtain ⟨x, hx, other⟩ := foreign.1 free
    exact ⟨t, done, as, fun all => absurd (all x hx) other,
      fun _ => (same.single frD).trans (State.fprIsSingle_putFpr_same _ _ _ _)⟩
  · rw [if_neg free] at run
    obtain ⟨t, done, as, delivered, written⟩ := State.putFloat_done quiet ho run
    exact ⟨t, done, as, fun _ => ⟨delivered, written⟩, fun h => absurd (foreign.2 h) free⟩

end

/-- Settles O39: each form is one operation that raises exception bits only. -/
theorem doubleArithmetic : Obligations.DoubleArithmetic := by
  intro s frD frA frB frC rc quiet w a b c ends done
  have estimate {keep : Word} {r : FpOut} (h : exceptionsOnly keep) := estimateOut_raisesExceptions h r
  exact ⟨State.putFloat_done quiet (fpAdd_raisesExceptions ..) rfl,
    State.putFloat_done quiet (fpAdd_raisesExceptions ..) rfl,
    State.putFloat_done quiet (fpMul_raisesExceptions ..) rfl,
    State.putFloat_done quiet (fpDiv_raisesExceptions ..) rfl,
    State.putFloat_done quiet (fpMulAdd_raisesExceptions ..) rfl,
    State.putFloat_done quiet (fpMulAdd_raisesExceptions ..) rfl,
    State.putFloat_done quiet (fpMulAdd_raisesExceptions ..) rfl,
    State.putFloat_done quiet (fpMulAdd_raisesExceptions ..) rfl,
    State.putFloat_done quiet (fpRoundSingle_raisesExceptions ..) rfl,
    State.putFloat_done quiet (estimate (by unfold exceptionsOnly; decide)) rfl,
    State.putFloat_done quiet (estimate (by unfold exceptionsOnly; decide)) rfl⟩

/-- Settles O40: each form is the double form's operation in single format, unless an operand is no single. -/
theorem singleArithmetic : Obligations.SingleArithmetic := by
  intro s frD frA frB frC rc quiet w a b c single done
  exact ⟨State.putSingle_done quiet (fpAdd_raisesExceptions ..) rfl,
    State.putSingle_done quiet (fpAdd_raisesExceptions ..) rfl,
    State.putSingle_done quiet (fpMul_raisesExceptions ..) rfl,
    State.putSingle_done quiet (fpDiv_raisesExceptions ..) rfl,
    State.putSingle_done quiet (fpMulAdd_raisesExceptions ..) rfl,
    State.putSingle_done quiet (fpMulAdd_raisesExceptions ..) rfl,
    State.putSingle_done quiet (fpMulAdd_raisesExceptions ..) rfl,
    State.putSingle_done quiet (fpMulAdd_raisesExceptions ..) rfl⟩

end Sys2Proof.Machine
end

section
/-! SUPPORT. Proofs/FloatCompare.lean: the compares, as instructions (O46). -/

namespace Sys2Proof.Machine

/-! ### The status of a compare (R455) -/

/-- FPSCR after a compare with outcome `c` that raises `exc`. -/
def compareStatus (w : Word) (c : BitVec 4) (exc : Word) : Word :=
  fpSettle w (((w &&& 0xFFFF0FFF) ||| (c.setWidth 32 <<< 12)) ||| exc)

theorem beBit_withFpcc (w : Word) (c : BitVec 4) (exc : Word) {k : Nat} (hk : k < 32) :
    beBit (((w &&& (0xFFFF0FFF : Word)) ||| c.setWidth 32 <<< 12) ||| exc) k =
      if 16 ≤ k ∧ k < 20 then c.getMsbD (k - 16) || beBit exc k else beBit (w ||| exc) k := by
  have mask : beBit (0xFFFF0FFF : Word) k = !decide (16 ≤ k ∧ k < 20) := by interval_cases k <;> rfl
  rw [beBit_or, beBit_or, beBit_and, mask, beBit_field (by omega), beBit_or]
  by_cases inside : 16 ≤ k ∧ k < 20 <;> simp [inside]

/-- The bits a compare does not write: C, FR, FI, the reserved bit, the control bits. -/
theorem compareKept_range {k : Nat} (hk : k < 32) (h : beBit (0x000708FF : Word) k = true) :
    3 ≤ k ∧ ¬(16 ≤ k ∧ k < 20) ∧ beBit fpExceptions k = false := by
  revert h
  interval_cases k <;> decide

theorem compareStatus_fpcc (w : Word) (c : BitVec 4) {exc : Word} (ho : exceptionsOnly exc) :
    (compareStatus w c exc).extractLsb' 12 4 = c := by
  refine field_ext (by omega) fun j hj => ?_
  have quiet : beBit exc (20 - 4 + j) = false := ho.beBit (by omega) (by interval_cases j <;> decide)
  rw [compareStatus, beBit_fpSettle _ _ (by omega)]
  refine (beBit_withFpcc w c exc (by omega)).trans ((if_pos (by omega)).trans ?_)
  rw [quiet, Bool.or_false]
  exact congrArg _ (by omega)

theorem compareStatus_kept (w : Word) (c : BitVec 4) {exc : Word} (ho : exceptionsOnly exc) :
    compareStatus w c exc &&& 0x000708FF = w &&& 0x000708FF := by
  refine and_congr_of_beBit fun k hk hm => ?_
  obtain ⟨low, outside, none⟩ := compareKept_range hk hm
  rw [compareStatus, beBit_fpSettle _ _ low]
  refine (beBit_withFpcc w c exc hk).trans ((if_neg outside).trans ?_)
  rw [beBit_or, ho.beBit hk none, Bool.or_false]

theorem compareStatus_adds (w : Word) (c : BitVec 4) {exc : Word} (ho : exceptionsOnly exc) :
    compareStatus w c exc &&& fpExceptions = (w ||| exc) &&& fpExceptions ∧
      beBit (compareStatus w c exc) 0 = (beBit w 0 || (exc &&& ~~~w &&& fpExceptions != 0)) ∧
      compareStatus w c exc &&& 0xFF = w &&& 0xFF ∧ fpSummarized (compareStatus w c exc) :=
  fpSettle_adds ho fun _ hk outside => (beBit_withFpcc w c exc hk).trans (if_neg (by omega))

/-! ### The exceptions of a compare (R455, R456) -/

theorem isNan_of_isSnan {d : Dword} (h : isSnan d = true) : isNan d = true := (Bool.and_eq_true_iff.1 h).1

theorem compareOrdered_eq (w : Word) (a b : Dword) : compareOrdered w a b =
    if (isNan a || isNan b) && !((isSnan a || isSnan b) && beBit w 24) then beMask 12 else 0 := by
  unfold compareOrdered
  by_cases signaling : (isSnan a || isSnan b) = true
  · have nan : (isNan a || isNan b) = true :=
      Bool.or_eq_true_iff.2 ((Bool.or_eq_true_iff.1 signaling).imp isNan_of_isSnan isNan_of_isSnan)
    rw [if_pos signaling, signaling, nan, Bool.true_and, Bool.true_and, fpVE]
    cases beBit w 24 <;> rfl
  · rw [if_neg signaling, Bool.eq_false_iff.2 signaling, Bool.false_and, Bool.not_false, Bool.and_true]
    rfl

/-! ### The instructions -/

section
variable {s : State} {crfD : BitVec 3} {c : BitVec 4} {exc : Word} {rc : Bool}

/-- What a compare has written when it completes, but for the CR field. -/
def State.withCompare (s : State) (c : BitVec 4) (exc : Word) : State := { s with fpscr := compareStatus s.fpscr c exc }

theorem State.putFloatCompare_quiet (quiet : s.fpQuiet) : s.putFloatCompare crfD c exc rc =
    .next (if rc then (s.withCompare c exc).undefineCrField crfD.toNat
      else (s.withCompare c exc).setCrField crfD.toNat c).advance := by
  obtain ⟨-, fe0, fe1⟩ := quiet
  have off : s.msrFE = false := Bool.or_eq_false_iff.2 ⟨fe0, fe1⟩
  cases rc
  · exact State.fpDone_off (s := (s.withCompare c exc).setCrField crfD.toNat c) off false
  · exact State.fpDone_off (s := (s.withCompare c exc).undefineCrField crfD.toNat) off false

theorem crBits_of_bits (c : BitVec 4) : crBits (c.getMsbD 0) (c.getMsbD 1) (c.getMsbD 2) (c.getMsbD 3) = c := by
  revert c
  decide

/-- The CR field of a compare. -/
theorem State.crFieldIs_withCompare : s.crFieldIs ((s.withCompare c exc).setCrField crfD.toNat c).advance crfD
    (c.getMsbD 0) (c.getMsbD 1) (c.getMsbD 2) (c.getMsbD 3) := by
  have field := State.crFieldIs_setCrField (s := s) (u := s.withCompare c exc) rfl crfD (c.getMsbD 0) (c.getMsbD 1)
    (c.getMsbD 2) (c.getMsbD 3)
  rwa [crBits_of_bits] at field

end

/-- Settles O46: both forms are one compare, with the exceptions of R455 and of R456. -/
theorem fpCompares : Obligations.FpCompares := by
  intro s crfD frA frB quiet w a b snan nan c done
  have compared {f : Bool → Instr} {exc : Word} (ho : exceptionsOnly exc)
      (run : ∀ rc, exec (f rc) s = s.needFp (s.putFloatCompare crfD c exc rc)) : done f exc := by
    have ends (rc : Bool) := (run rc).trans ((State.needFp_on quiet.1 _).trans (State.putFloatCompare_quiet quiet))
    obtain ⟨raised, fx, -, summarized⟩ := compareStatus_adds w c ho
    exact ⟨_, _, ends false, rfl, ends true, rfl, fun k hk => (beBit_setField4 _ crfD.isLt _ _).trans (if_neg hk),
      State.crFieldIs_withCompare, compareStatus_fpcc w c ho, raised, compareStatus_kept w c ho, fx, summarized⟩
  have invalid {p : Prop} [Decidable p] : exceptionsOnly (if p then beMask 7 else 0) :=
    ite_and_eq_zero (by decide) (by decide)
  refine ⟨compared invalid fun _ => rfl,
    compared (or_and_eq_zero invalid (ite_and_eq_zero (by decide) (by decide))) fun rc => ?_⟩
  rw [← compareOrdered_eq]
  rfl

end Sys2Proof.Machine
end

section
/-! SUPPORT. Proofs/FloatStores.lean: the floating-point stores to plain storage (O51). -/

namespace Sys2Proof.Machine

section
variable {s : State} {i : Instr} {f : AlignForm} {ea pa : Word} {wimg : BitVec 4} {n : Nat} {rA : Reg} {bs : List Byte}

/-- One access of a word or of a double word is word-aligned (R565). -/
theorem wordAligned_of_oneAccess {ea : Word} {n : Nat} (hn : n = 4 ∨ n = 8) (h : oneAccess ea n) :
    wordAligned ea = true := by
  rw [wordAligned_iff]
  unfold oneAccess at h
  omega

/-- With MSR[FP] = 1 a floating-point store of plain storage is a store to it. -/
theorem State.fpStoreForm_plain (fp : s.msrFP = true) (hn : n = 4 ∨ n = 8) (len : bs.length = n)
    (hp : s.plainOperand .fpStore ea pa wimg n) (rest : State → State) :
    ∃ t, s.fpStoreForm i f ea bs rest = .next (rest t).advance ∧ s.onlyMemorySystem t ∧
      s.wroteBytes t ((physSpan s.msrLE pa bs.length).zip (s.orderBytes bs)) := by
  have one : oneAccess ea n := hp.2.2
  rw [State.fpStoreForm, State.needFp, if_pos fp, if_pos (wordAligned_of_oneAccess hn one)]
  exact State.storeForm_plain rfl len hp rest

/-- A store that writes no register. -/
theorem State.fpStore_done (fp : s.msrFP = true) (hn : n = 4 ∨ n = 8) (len : bs.length = n)
    (hp : s.plainOperand .fpStore ea pa wimg n) (run : exec i s = s.fpStoreForm i f ea bs fun t => t) :
    ∃ t, exec i s = .next t ∧ s.stored t [] pa bs := by
  obtain ⟨t, done, only, wrote⟩ := State.fpStoreForm_plain (i := i) (f := f) fp hn len hp fun t => t
  exact ⟨_, run.trans done, State.stored_advance only wrote⟩

/-- A store with update, whose base register is not 0. -/
theorem State.fpStoreUpdate_done (fp : s.msrFP = true) (h0 : rA ≠ 0) (hn : n = 4 ∨ n = 8) (len : bs.length = n)
    (hp : s.plainOperand .fpStore ea pa wimg n) (run : exec i s = s.fpStoreForm i f ea bs fun t => t.updateBase rA ea) :
    ∃ t, exec i s = .next t ∧ s.stored t [rA] pa bs ∧ t.readGpr rA = ea := by
  obtain ⟨t, done, only, wrote⟩ := State.fpStoreForm_plain (i := i) (f := f) fp hn len hp fun t => t.updateBase rA ea
  rw [State.updateBase, if_neg h0] at done
  exact ⟨_, run.trans done, State.stored_writeGpr only wrote _ _, State.readGpr_writeGpr_same _ _ _⟩

end

section
variable {s : State} {frS rA rB : Reg} {pa : Word} {wimg : BitVec 4}

/-- `stfiwx` by what wrote its register last (R473, R588). -/
theorem exec_stfiwx {single : Bool} (h : s.fprIsSingle frS = single) : exec (.stfiwx frS rA rB false) s =
    s.fpStoreForm (.stfiwx frS rA rB false) .noBase (s.eaX rA rB) (lowBytes 4 (s.integerWord frS))
      fun t => if single then t.drawWord.2 else t := by
  subst h
  rfl

theorem State.integerWord_double (double : s.fprIsSingle frS = false) :
    lowBytes 4 (s.integerWord frS) = bytesOfNat 4 ((s.readFpr frS).toNat % 4294967296) := by
  rw [State.integerWord, double, if_neg Bool.false_ne_true, lowBytes, BitVec.extractLsb'_toNat, Nat.shiftRight_zero]

theorem State.stfiwx_done (fp : s.msrFP = true) (hp : s.plainOperand .fpStore (s.eaX rA rB) pa wimg 4)
    (double : s.fprIsSingle frS = false) : ∃ t, exec (.stfiwx frS rA rB false) s = .next t ∧
      s.stored t [] pa (bytesOfNat 4 ((s.readFpr frS).toNat % 4294967296)) := by
  rw [← State.integerWord_double double]
  exact State.fpStore_done fp (.inl rfl) (bytesOfNat_length _ _) hp (exec_stfiwx double)

/-- Where a single-precision operation wrote the register last: some word. -/
theorem State.stfiwx_free (fp : s.msrFP = true) (hp : s.plainOperand .fpStore (s.eaX rA rB) pa wimg 4)
    (single : s.fprIsSingle frS = true) : ∃ (t : State) (v : Word), exec (.stfiwx frS rA rB false) s = .next t ∧
      State.stored { s with fresh := s.fresh + 1 } t [] pa (bytesOfNat 4 v.toNat) := by
  obtain ⟨t, done, only, wrote⟩ := State.fpStoreForm_plain (i := .stfiwx frS rA rB false) (f := .noBase)
    (bs := lowBytes 4 (s.integerWord frS)) fp (.inl rfl) (bytesOfNat_length _ _) hp fun t => t.drawWord.2
  refine ⟨_, s.integerWord frS, (exec_stfiwx single).trans done, ?_,
    fun q _ => State.readGpr_of_onlyMemorySystem only q, wrote⟩
  have fresh : t.fresh = s.fresh := by rw [only]
  have drawn : t.drawWord.2.advance = { t with fresh := s.fresh + 1, pc := t.pc + 4 } := by rw [← fresh]; rfl
  rw [drawn, only]

end

/-- Settles O51: every form is the one floating-point store, with its own bytes. -/
theorem fpStores : Obligations.FpStores := by
  intro s frS rA rB d pa wimg fp base ea ex double done updated single singleUp
  have len (n v : Nat) : (bytesOfNat n v).length = n := bytesOfNat_length n v
  refine ⟨fun h => ⟨State.fpStore_done fp (.inr rfl) (len _ _) h rfl, fun h0 => ?_⟩,
    fun h => ⟨State.fpStore_done fp (.inr rfl) (len _ _) h rfl, fun h0 => ?_⟩, fun h => ⟨?_, fun h0 => ?_⟩,
    fun h => ⟨?_, fun h0 => ?_, State.stfiwx_done fp h, State.stfiwx_free fp h⟩⟩
  · exact State.fpStoreUpdate_done fp h0 (.inr rfl) (len _ _) h rfl
  · exact State.fpStoreUpdate_done fp h0 (.inr rfl) (len _ _) h rfl
  · obtain ⟨t, run⟩ := State.fpStore_done (i := .stfs frS rA d) fp (.inl rfl) (len _ _) h rfl
    exact ⟨t, _, run⟩
  · obtain ⟨t, run⟩ := State.fpStoreUpdate_done (i := .stfsu frS rA d) fp h0 (.inl rfl) (len _ _) h rfl
    exact ⟨t, _, run⟩
  · obtain ⟨t, run⟩ := State.fpStore_done (i := .stfsx frS rA rB false) fp (.inl rfl) (len _ _) h rfl
    exact ⟨t, _, run⟩
  · obtain ⟨t, run⟩ := State.fpStoreUpdate_done (i := .stfsux frS rA rB false) fp h0 (.inl rfl) (len _ _) h rfl
    exact ⟨t, _, run⟩

end Sys2Proof.Machine
end

section
/-! SUPPORT. Proofs/FloatRounding.lean: rounding a magnitude to a multiple of a power of two (O42). -/

namespace Sys2Proof.Machine

/-- Whether rounding `m` to a multiple of `unit` increases it (R425). -/
def Rounding.increases (rn : Rounding) (neg : Bool) (m unit : Nat) : Bool :=
  match rn with
  | .nearest => decide (unit < 2 * (m % unit)) || (2 * (m % unit) == unit && m / unit % 2 == 1)
  | .towardZero => false
  | .up => m % unit != 0 && !neg
  | .down => m % unit != 0 && neg

/-- Rounding to a coarser unit drops the low bits and adds one if it increases. -/
theorem roundAt_shift (rn : Rounding) (neg : Bool) (m : Nat) (e : Int) {k : Nat} (hk : 0 < k) :
    roundAt rn neg m e (e + k) = ⟨m / 2 ^ k + (rn.increases neg m (2 ^ k)).toNat, m % 2 ^ k != 0,
      rn.increases neg m (2 ^ k)⟩ := by
  have shift : (e + (k : Int) - e).toNat = k := by omega
  unfold roundAt
  rw [if_neg (by omega), shift]
  show (⟨if rn.increases neg m (2 ^ k) then m / 2 ^ k + 1 else m / 2 ^ k, _, rn.increases neg m (2 ^ k)⟩ : Rounded) = _
  cases rn.increases neg m (2 ^ k) <;> rfl

/-- Rounding to a finer unit is exact. -/
theorem roundAt_exact (rn : Rounding) (neg : Bool) (m : Nat) {e u : Int} (h : u ≤ e) :
    roundAt rn neg m e u = ⟨m * 2 ^ (e - u).toNat, false, false⟩ := if_pos h

section
variable {neg : Bool} {m unit : Nat}

/-- The multiple exceeds the magnitude exactly if it was increased. -/
theorem Rounding.increases_eq_lt (rn : Rounding) (neg : Bool) (m : Nat) (hu : 0 < unit) :
    rn.increases neg m unit = decide (m < (m / unit + (rn.increases neg m unit).toNat) * unit) := by
  have whole := Nat.div_add_mod m unit
  have low := Nat.mod_lt m hu
  rw [Nat.add_mul, Nat.mul_comm (m / unit)]
  cases rn.increases neg m unit
  · rw [Bool.toNat_false, Nat.zero_mul, eq_comm, decide_eq_false_iff_not]
    omega
  · rw [Bool.toNat_true, Nat.one_mul, eq_comm, decide_eq_true_iff]
    omega

/-- To nearest: within half a unit of the magnitude, and even at a tie. -/
theorem Rounding.increases_nearest (neg : Bool) (m : Nat) (hu : 0 < unit) :
    let q := m / unit + (Rounding.nearest.increases neg m unit).toNat
    2 * m ≤ 2 * (q * unit) + unit ∧ 2 * (q * unit) ≤ 2 * m + unit ∧ (2 * (m % unit) = unit → q % 2 = 0) := by
  have whole := Nat.div_add_mod m unit
  have low := Nat.mod_lt m hu
  intro q
  have scaled : q * unit = unit * (m / unit) + (Rounding.nearest.increases neg m unit).toNat * unit := by
    rw [Nat.mul_comm unit, ← Nat.add_mul]
  rw [scaled]
  have half : Rounding.nearest.increases neg m unit = true ↔
      unit < 2 * (m % unit) ∨ (2 * (m % unit) = unit ∧ m / unit % 2 = 1) := by
    simp [Rounding.increases]
  cases up : Rounding.nearest.increases neg m unit
  · have stays : ¬(unit < 2 * (m % unit) ∨ (2 * (m % unit) = unit ∧ m / unit % 2 = 1)) := by
      rw [← half, up]
      exact Bool.false_ne_true
    simp only [q, up, Bool.toNat_false, Nat.zero_mul, Nat.add_zero]
    omega
  · have moves := half.1 up
    simp only [q, up, Bool.toNat_true, Nat.one_mul]
    omega

end

/-- Settles O42: each clause is one fact about when rounding increases. -/
theorem roundingToMultiple : Obligations.RoundingToMultiple := by
  intro rn neg m k e hk r unit
  have positive : 0 < 2 ^ k := Nat.two_pow_pos k
  have rounded : r = _ := roundAt_shift rn neg m e hk
  rw [rounded]
  refine ⟨?_, rn.increases_eq_lt neg m positive, fun same => ?_, fun up => ?_, ?_, ?_, ?_, ?_⟩
  · exact Bool.eq_iff_iff.2 (by simp [unit])
  · dsimp only at same ⊢
    rw [same]
    rfl
  · dsimp only at up ⊢
    rw [up]
    rfl
  · rintro rfl
    exact Rounding.increases_nearest neg m positive
  · rintro rfl
    rfl
  · rintro rfl
    rfl
  · rintro rfl
    rfl

end Sys2Proof.Machine
end

section
/-! SUPPORT. Proofs/SingleFormat.lean: a single as a double and back (O45). -/

namespace Sys2Proof.Machine

/-! ### Singles that are not denormalized (R470, R471) -/

/-- A single with its exponent widened by three bits `c`, and its fraction continued by zeros. -/
def widened (w : Word) (c : Bool) : Dword :=
  w.extractLsb' 30 2 ++ bit1 c ++ bit1 c ++ bit1 c ++ w.extractLsb' 0 30 ++ 0#29

theorem bit1_toNat (c : Bool) : (bit1 c).toNat = c.toNat := by cases c <;> rfl

theorem extract_toNat {n : Nat} (w : BitVec n) (k j : Nat) : (w.extractLsb' k j).toNat = w.toNat / 2 ^ k % 2 ^ j := by
  rw [BitVec.extractLsb'_toNat, Nat.shiftRight_eq_div_pow]

/-- The bits that `SINGLE` takes are those that were widened. -/
theorem widened_narrows (w : Word) (c : Bool) :
    (widened w c).extractLsb' 62 2 ++ (widened w c).extractLsb' 29 30 = w := by
  have high : (widened w c).extractLsb' 62 2 = w.extractLsb' 30 2 := by
    rw [widened, extract_high (k := 33) _ _ (by omega), extract_high (k := 3) _ _ (by omega),
      extract_high (k := 2) _ _ (by omega), extract_high (k := 1) _ _ (by omega), extract_high (k := 0) _ _ (by omega),
      extract_all]
  have low : (widened w c).extractLsb' 29 30 = w.extractLsb' 0 30 := by
    rw [widened, extract_high (k := 0) _ _ (by omega), extract_low _ _ (by omega), extract_all]
  rw [high, low, BitVec.extractLsb'_append_extractLsb'_eq_extractLsb' (by rfl)]
  exact extract_all w

theorem widened_toNat (w : Word) (c : Bool) : (widened w c).toNat =
    ((w.toNat / 2 ^ 30 * 8 + 7 * c.toNat) * 2 ^ 30 + w.toNat % 2 ^ 30) * 2 ^ 29 := by
  have := w.isLt
  unfold widened
  simp only [toNat_append_eq, bit1_toNat, extract_toNat]
  simp
  omega

theorem dExp_widened (w : Word) (c : Bool) :
    dExp (widened w c) = ((w.toNat / 2 ^ 30 * 8 + 7 * c.toNat) * 128 + w.toNat % 2 ^ 30 / 2 ^ 23) % 2048 := by
  rw [dExp, extract_toNat, widened_toNat]
  have narrow (q r : Nat) : (q * 2 ^ 30 + r) * 2 ^ 29 / 2 ^ 52 = q * 128 + r / 2 ^ 23 := by omega
  rw [narrow]
  rfl

theorem beBit_one (w : Word) : w.getMsbD 1 = decide (w.toNat / 2 ^ 30 % 2 = 1) :=
  (beBit_eq_testBit w (by omega)).trans Nat.testBit_eq_decide_div_mod_eq

/-- The exponent of `DOUBLE` of a single that is not denormalized is beyond those of denormalized singles, but for a
zero's. -/
theorem doubleOf_widened {w : Word} (h : ¬(w.extractLsb' 23 8 = 0 ∧ w.extractLsb' 0 23 ≠ 0)) :
    ∃ c, doubleOf w = widened w c ∧ (896 < dExp (widened w c) ∨ (widened w c).extractLsb' 0 63 = 0) := by
  have bound := w.isLt
  have exponent (v : Nat) (hv : v < 256) : w.extractLsb' 23 8 = BitVec.ofNat 8 v ↔ w.toNat / 2 ^ 23 % 256 = v := by
    rw [← BitVec.toNat_inj, extract_toNat, BitVec.toNat_ofNat, Nat.mod_eq_of_lt hv]
    exact Iff.rfl
  have fraction : w.extractLsb' 0 23 = 0 ↔ w.toNat % 2 ^ 23 = 0 := by
    rw [← BitVec.toNat_inj, extract_toNat, Nat.pow_zero, Nat.div_one]
    rfl
  have zero : w.extractLsb' 23 8 = 0 ↔ w.toNat / 2 ^ 23 % 256 = 0 := exponent 0 (by omega)
  have full : w.extractLsb' 23 8 = 255 ↔ w.toNat / 2 ^ 23 % 256 = 255 := exponent 255 (by omega)
  refine ⟨_, if_neg h, ?_⟩
  rw [zero, Ne, fraction] at h
  simp only [zero, full, dExp_widened, beBit_one]
  by_cases isZero : w.toNat / 2 ^ 23 % 256 = 0
  · right
    have clear : ¬w.toNat / 2 ^ 30 % 2 = 1 := by omega
    rw [if_pos (.inl isZero), decide_eq_false clear, ← BitVec.toNat_inj, extract_toNat, widened_toNat, Bool.toNat_false]
    have : w.toNat % 2 ^ 31 = 0 := by omega
    simp
    omega
  · left
    by_cases upper : w.toNat / 2 ^ 30 % 2 = 1
    · have top : w.toNat / 2 ^ 30 * 8 * 128 % 2048 = 1024 := by omega
      have wide (c : Bool) : 896 < ((w.toNat / 2 ^ 30 * 8 + 7 * c.toNat) * 128 + w.toNat % 2 ^ 30 / 2 ^ 23) % 2048 := by
        cases c
        · rw [Bool.toNat_false]
          omega
        · rw [Bool.toNat_true]
          omega
      exact wide _
    · have below : ¬(w.toNat / 2 ^ 23 % 256 = 0 ∨ w.toNat / 2 ^ 23 % 256 = 255) := by omega
      rw [if_neg below, decide_eq_false upper, Bool.not_false, Bool.toNat_true]
      omega

theorem singleOf_high {d : Dword} (h : 896 < dExp d ∨ d.extractLsb' 0 63 = 0) (free : Word) :
    singleOf d free = d.extractLsb' 62 2 ++ d.extractLsb' 29 30 := if_pos h

/-! ### Denormalized singles (R470, R471) -/

/-- `DOUBLE` of a denormalized single with fraction `f`: shifted left by `k` until its leading bit has gone. -/
def normalized (w : Word) (k : Nat) : Dword :=
  w.extractLsb' 31 1 ++ BitVec.ofNat 11 (897 - k) ++ (w.extractLsb' 0 23 <<< k) ++ 0#29

theorem normalized_fields (w : Word) (k : Nat) :
    (normalized w k).extractLsb' 63 1 = w.extractLsb' 31 1 ∧
      (normalized w k).extractLsb' 52 11 = BitVec.ofNat 11 (897 - k) ∧ (normalized w k).extractLsb' 29 23 = w.extractLsb' 0 23 <<< k := by
  refine ⟨?_, ?_, ?_⟩
  · rw [normalized, extract_high (k := 34) _ _ (by omega), extract_high (k := 11) _ _ (by omega),
      extract_high (k := 0) _ _ (by omega), extract_all]
  · rw [normalized, extract_high (k := 23) _ _ (by omega), extract_high (k := 0) _ _ (by omega),
      extract_low _ _ (by omega), extract_all]
  · rw [normalized, extract_high (k := 0) _ _ (by omega), extract_low _ _ (by omega), extract_all]

/-- A fraction shifted left until its leading bit goes, with that bit put back, and shifted right again. -/
theorem shiftLeft_leading (f : BitVec 23) (hf : f ≠ 0) :
    ((1#1 ++ (f <<< (23 - Nat.log2 f.toNat)) : BitVec 24) >>> (23 - Nat.log2 f.toNat)).setWidth 23 = f := by
  have nonzero : f.toNat ≠ 0 := fun h => hf (BitVec.eq_of_toNat_eq h)
  have low := Nat.log2_self_le nonzero
  have high := Nat.lt_log2_self (n := f.toNat)
  have small : Nat.log2 f.toNat < 23 := (Nat.log2_lt nonzero).2 f.isLt
  have split : 2 ^ Nat.log2 f.toNat * 2 ^ (23 - Nat.log2 f.toNat) = 2 ^ 23 := by
    rw [← Nat.pow_add, Nat.add_sub_cancel' (by omega)]
  have leading : 2 ^ 23 + f.toNat * 2 ^ (23 - Nat.log2 f.toNat) % 2 ^ 23 = f.toNat * 2 ^ (23 - Nat.log2 f.toNat) := by
    have lower := Nat.mul_le_mul_right (2 ^ (23 - Nat.log2 f.toNat)) low
    have upper := Nat.mul_lt_mul_of_pos_right high (Nat.two_pow_pos (23 - Nat.log2 f.toNat))
    rw [Nat.pow_succ, Nat.mul_right_comm] at upper
    rw [split] at lower upper
    omega
  apply BitVec.eq_of_toNat_eq
  rw [BitVec.toNat_setWidth, BitVec.toNat_ushiftRight, toNat_append_eq, BitVec.toNat_shiftLeft, Nat.shiftLeft_eq,
    Nat.shiftRight_eq_div_pow, BitVec.toNat_ofNat, show 1 % 2 ^ 1 * 2 ^ 23 = 2 ^ 23 by rfl, leading,
    Nat.mul_div_cancel _ (Nat.two_pow_pos _), Nat.mod_eq_of_lt f.isLt]

theorem singleOf_normalized {w : Word} (h : w.extractLsb' 23 8 = 0 ∧ w.extractLsb' 0 23 ≠ 0) (free : Word) :
    singleOf (normalized w (23 - Nat.log2 (w.extractLsb' 0 23).toNat)) free = w := by
  obtain ⟨exponent, fraction⟩ := h
  have nonzero : (w.extractLsb' 0 23).toNat ≠ 0 := fun h => fraction (BitVec.eq_of_toNat_eq h)
  have small : Nat.log2 (w.extractLsb' 0 23).toNat < 23 := (Nat.log2_lt nonzero).2 (w.extractLsb' 0 23).isLt
  have back := shiftLeft_leading _ fraction
  obtain ⟨k, hk⟩ : ∃ k, k = 23 - Nat.log2 (w.extractLsb' 0 23).toNat := ⟨_, rfl⟩
  rw [← hk] at back ⊢
  have lower : 1 ≤ k := by omega
  have upper : k ≤ 23 := by omega
  obtain ⟨sign, exp, frac⟩ := normalized_fields w k
  have value : dExp (normalized w k) = 897 - k := by
    rw [dExp, exp, BitVec.toNat_ofNat, Nat.mod_eq_of_lt (by omega)]
  have notZero : (normalized w k).extractLsb' 0 63 ≠ 0 := by
    intro zero
    have low : (normalized w k).toNat % 2 ^ 63 = 0 := by
      have := congrArg BitVec.toNat zero
      rwa [extract_toNat, Nat.pow_zero, Nat.div_one] at this
    rw [dExp, extract_toNat] at value
    omega
  have narrow : ¬(896 < dExp (normalized w k) ∨ (normalized w k).extractLsb' 0 63 = 0) := by
    rintro (wide | zero)
    · omega
    · exact notZero zero
  unfold singleOf
  rw [if_neg narrow, if_pos (by rw [value]; omega), value, sign, frac, show 897 - (897 - k) = k by omega]
  dsimp only
  rw [back, show (0#8 : BitVec 8) = w.extractLsb' 23 8 from exponent.symm,
    BitVec.extractLsb'_append_extractLsb'_eq_extractLsb' (by rfl),
    BitVec.extractLsb'_append_extractLsb'_eq_extractLsb' (by rfl)]
  exact extract_all w

/-- Settles O45: a word is widened, or its fraction normalized, and both are undone. -/
theorem singleDoubleRoundTrip : Obligations.SingleDoubleRoundTrip := by
  intro w free
  by_cases denormalized : w.extractLsb' 23 8 = 0 ∧ w.extractLsb' 0 23 ≠ 0
  · have double : doubleOf w = normalized w _ := if_pos denormalized
    rw [double, singleOf_normalized denormalized]
  · obtain ⟨c, double, high⟩ := doubleOf_widened denormalized
    rw [double, singleOf_high high, widened_narrows]

end Sys2Proof.Machine
end

section
/-! SUPPORT. Proofs/FloatValues.lean: the numbers that finite doubles stand for, their exact sums and products, and
their order (O41, O47). -/

namespace Sys2Proof.Machine

/-! ### Signs -/

/-- The factor of a sign bit. -/
def signFactor (neg : Bool) : Rat := if neg then -1 else 1

theorem signFactor_true : signFactor true = -1 := rfl

theorem signFactor_false : signFactor false = 1 := rfl

theorem signFactor_not (n : Bool) : signFactor (!n) = -signFactor n := by
  cases n
  · rfl
  · exact (neg_neg 1).symm

theorem signFactor_bne (a b : Bool) : signFactor (a != b) = signFactor a * signFactor b := by
  cases a <;> cases b <;> norm_num [signFactor]

theorem signFactor_abs (n : Bool) : |signFactor n| = 1 := by
  cases n <;> norm_num [signFactor]

theorem signFactor_mul_self (n : Bool) : signFactor n * signFactor n = 1 := by
  cases n <;> norm_num [signFactor]

theorem signFactor_ne_zero (n : Bool) : signFactor n ≠ 0 := by
  cases n <;> norm_num [signFactor]

theorem signFactor_mul_neg_iff (n : Bool) {x : Rat} (h : 0 < x) : signFactor n * x < 0 ↔ n = true := by
  cases n
  · simp only [signFactor_false, one_mul, Bool.false_eq_true, iff_false, not_lt]
    exact h.le
  · simpa [signFactor_true] using h

/-! ### The number of a value -/

theorem FpVal.isNumber_num (n : Bool) (m : Nat) (e : Int) (q : Rat) :
    (FpVal.num n m e).isNumber q ↔ q = signFactor n * (m : Rat) * (2 : Rat) ^ e := Iff.rfl

theorem FpVal.isNumber_zero (n : Bool) (q : Rat) : (FpVal.zero n).isNumber q ↔ q = 0 := Iff.rfl

/-- A value that is no zero written as a number. -/
def FpVal.Proper : FpVal → Prop
  | .num _ m _ => 0 < m
  | .nan => True
  | .inf _ => True
  | .zero _ => True

theorem unpack_proper (d : Dword) : (unpack d).Proper := by
  unfold unpack
  by_cases top : dExp d = 2047
  · rw [if_pos top]
    by_cases h : dFrac d = 0
    · rw [if_pos h]
      trivial
    · rw [if_neg h]
      trivial
  rw [if_neg top]
  by_cases bottom : dExp d = 0
  · rw [if_pos bottom]
    by_cases h : dFrac d = 0
    · rw [if_pos h]
      trivial
    · rw [if_neg h]
      exact Nat.pos_of_ne_zero h
  · rw [if_neg bottom]
    exact Nat.add_pos_left (Nat.two_pow_pos 52) _

theorem FpVal.Proper.neg {v : FpVal} (h : v.Proper) : v.neg.Proper := by
  cases v <;> exact h

theorem FpVal.isNumber_neg {v : FpVal} {q : Rat} (h : v.isNumber q) : v.neg.isNumber (-q) := by
  cases v with
  | nan => exact h
  | inf n => exact h
  | zero n =>
    rw [FpVal.isNumber_zero] at h
    exact neg_eq_zero.2 h
  | num n m e =>
    rw [FpVal.isNumber_num] at h
    show -q = signFactor (!n) * m * 2 ^ e
    rw [signFactor_not, h, neg_mul, neg_mul]

/-! ### The number of a double (R421) -/

/-- A double below the exponent 2047, from its fields. -/
theorem unpack_isNumber {d : Dword} (h : dExp d ≠ 2047) : (unpack d).isNumber (signFactor (dSign d) *
    (if dExp d = 0 then (dFrac d : Rat) * 2 ^ (-1074 : Int)
      else (2 ^ 52 + dFrac d : Rat) * 2 ^ ((dExp d : Int) - 1075))) := by
  unfold unpack
  rw [if_neg h]
  by_cases bottom : dExp d = 0
  · rw [if_pos bottom, if_pos bottom]
    by_cases none : dFrac d = 0
    · rw [if_pos none, FpVal.isNumber_zero, none, Nat.cast_zero, zero_mul, mul_zero]
    · rw [if_neg none, FpVal.isNumber_num, mul_assoc]
  · rw [if_neg bottom, if_neg bottom, FpVal.isNumber_num, Nat.cast_add, Nat.cast_pow, Nat.cast_ofNat, mul_assoc]
    rfl

/-- A double that stands for a number is no NaN. -/
theorem not_isNan_of_isNumber {d : Dword} {q : Rat} (h : (unpack d).isNumber q) : isNan d = false := by
  rw [← Bool.not_eq_true, isNan_iff]
  rintro ⟨top, fraction⟩
  unfold unpack at h
  rw [if_pos top, if_neg fraction] at h
  exact h

/-- Subtracting 52 from an exponent divides by the unit of the fraction. -/
theorem two_zpow_sub_52 (e : Int) : (2 : Rat) ^ (e - 52) = 2 ^ e / 2 ^ 52 := by
  rw [zpow_sub₀ (by norm_num)]
  rfl

/-! ### Exact sums and products (R430, R434) -/

theorem ofInt_isNumber (x : Int) (e : Int) (z : Bool) : (ofInt x e z).isNumber ((x : Rat) * 2 ^ e) := by
  unfold ofInt
  by_cases zero : x = 0
  · rw [if_pos zero, FpVal.isNumber_zero, zero, Int.cast_zero, zero_mul]
  · rw [if_neg zero, FpVal.isNumber_num, Nat.cast_natAbs, Int.cast_abs]
    by_cases negative : x < 0
    · have : (x : Rat) < 0 := Int.cast_lt_zero.2 negative
      rw [decide_eq_true negative, signFactor_true, abs_of_neg this, neg_one_mul, neg_neg]
    · have : (0 : Rat) ≤ x := Int.cast_nonneg (not_lt.1 negative)
      rw [decide_eq_false negative, signFactor_false, abs_of_nonneg this, one_mul]

theorem ofInt_proper (x : Int) (e : Int) (z : Bool) : (ofInt x e z).Proper := by
  unfold ofInt
  by_cases zero : x = 0
  · rw [if_pos zero]
    trivial
  · rw [if_neg zero]
    exact Int.natAbs_pos.2 zero

/-- A magnitude in units of a smaller power of two. -/
theorem mul_two_zpow_of_le (m : Nat) {e g : Int} (h : g ≤ e) :
    ((m * 2 ^ (e - g).toNat : Nat) : Rat) * 2 ^ g = m * 2 ^ e := by
  have exponent : ((e - g).toNat : Int) = e - g := Int.toNat_of_nonneg (by omega)
  rw [Nat.cast_mul, Nat.cast_pow, Nat.cast_ofNat, mul_assoc, ← zpow_natCast, exponent, ← zpow_add₀ (by norm_num),
    sub_add_cancel]

theorem cast_signed (n : Bool) (x : Nat) :
    ((if n then -Int.ofNat x else Int.ofNat x : Int) : Rat) = signFactor n * x := by
  cases n
  · exact (one_mul _).symm
  · show ((-(x : Int) : Int) : Rat) = -1 * x
    rw [Int.cast_neg, Int.cast_natCast, neg_one_mul]

theorem FpVal.add_isNumber {x y : FpVal} {p q : Rat} (down : Bool) (hx : x.isNumber p) (hy : y.isNumber q) :
    (FpVal.add down x y).isNumber (p + q) := by
  cases x with
  | nan => exact hx.elim
  | inf n => exact hx.elim
  | zero a =>
    rw [(FpVal.isNumber_zero a p).1 hx, zero_add]
    cases y with
    | nan => exact hy.elim
    | inf n => exact hy.elim
    | zero b => exact hy
    | num b k f => exact hy
  | num a m e =>
    cases y with
    | nan => exact hy.elim
    | inf n => exact hy.elim
    | zero b =>
      rw [(FpVal.isNumber_zero b q).1 hy, add_zero]
      exact hx
    | num b k f =>
      have value := ofInt_isNumber ((if a then -Int.ofNat (m * 2 ^ (e - min e f).toNat) else
        Int.ofNat (m * 2 ^ (e - min e f).toNat)) + (if b then -Int.ofNat (k * 2 ^ (f - min e f).toNat) else
        Int.ofNat (k * 2 ^ (f - min e f).toNat))) (min e f) down
      rw [Int.cast_add, cast_signed, cast_signed, add_mul, mul_assoc, mul_assoc, mul_two_zpow_of_le m (min_le_left e f),
        mul_two_zpow_of_le k (min_le_right e f), ← mul_assoc, ← mul_assoc] at value
      rw [FpVal.isNumber_num] at hx hy
      rw [hx, hy]
      exact value

theorem FpVal.add_proper {x y : FpVal} (down : Bool) (hx : x.Proper) (hy : y.Proper) : (FpVal.add down x y).Proper := by
  cases x with
  | nan => trivial
  | inf n => cases y <;> trivial
  | zero a => cases y <;> exact hy
  | num a m e =>
    cases y with
    | nan => trivial
    | inf n => trivial
    | zero b => exact hx
    | num b k f => exact ofInt_proper _ _ _

theorem FpVal.mul_isNumber {x y : FpVal} {p q : Rat} (hx : x.isNumber p) (hy : y.isNumber q) :
    (FpVal.mul x y).isNumber (p * q) := by
  cases x with
  | nan => exact hx.elim
  | inf n => exact hx.elim
  | zero a =>
    rw [(FpVal.isNumber_zero a p).1 hx, zero_mul]
    cases y with
    | nan => exact hy.elim
    | inf n => exact hy.elim
    | zero b => rfl
    | num b k f => rfl
  | num a m e =>
    cases y with
    | nan => exact hy.elim
    | inf n => exact hy.elim
    | zero b =>
      rw [(FpVal.isNumber_zero b q).1 hy, mul_zero]
      rfl
    | num b k f =>
      rw [FpVal.isNumber_num] at hx hy
      show p * q = signFactor (a != b) * (m * k : Nat) * 2 ^ (e + f)
      rw [hx, hy, signFactor_bne, Nat.cast_mul, zpow_add₀ (by norm_num)]
      ring

theorem FpVal.mul_proper {x y : FpVal} (hx : x.Proper) (hy : y.Proper) : (FpVal.mul x y).Proper := by
  cases x with
  | nan => trivial
  | inf n => cases y <;> trivial
  | zero a => cases y <;> trivial
  | num a m e =>
    cases y with
    | nan => trivial
    | inf n => trivial
    | zero b => trivial
    | num b k f => exact Nat.mul_pos hx hy

/-- Settles O41: the fields give the number, and a sum is one of integers in units of the smaller power of two. -/
theorem fpExactOperations : Obligations.FpExactOperations := by
  refine ⟨?_, fun x y p q down hx hy => ⟨FpVal.add_isNumber down hx hy, FpVal.mul_isNumber hx hy⟩⟩
  intro d E F finite
  have number := unpack_isNumber finite
  have smallest : (2 : Rat) ^ (-1074 : Int) = 2 ^ (-1022 : Int) / 2 ^ 52 := by
    rw [← two_zpow_sub_52]
    rfl
  have unit : (2 : Rat) ^ ((dExp d : Int) - 1075) = 2 ^ ((dExp d : Int) - 1023) / 2 ^ 52 := by
    rw [← two_zpow_sub_52]
    congr 1
    omega
  rw [smallest, unit] at number
  have denormalized : F * (2 : Rat) ^ (-1022 : Int) = (dFrac d : Rat) * (2 ^ (-1022 : Int) / 2 ^ 52) :=
    div_mul_eq_mul_div _ _ _ |>.trans (mul_div_assoc _ _ _)
  have normalized : (1 + F) * (2 : Rat) ^ ((E : Int) - 1023) =
      (2 ^ 52 + dFrac d : Rat) * (2 ^ ((dExp d : Int) - 1023) / 2 ^ 52) := by
    show (1 + (dFrac d : Rat) / 2 ^ 52) * 2 ^ ((dExp d : Int) - 1023) = _
    ring
  rw [denormalized, normalized]
  exact number

/-! ### The order (R455) -/

/-- Whether a value is positive is its sign. -/
theorem FpVal.Proper.positive {v : FpVal} {q : Rat} (proper : v.Proper) (h : v.isNumber q) :
    (v.isNum && !v.isNeg) = decide (0 < q) := by
  cases v with
  | nan => exact h.elim
  | inf n => exact h.elim
  | zero n =>
    obtain rfl := h
    rfl
  | num n m e =>
    have magnitude : 0 < (m : Rat) * 2 ^ e := mul_pos (Nat.cast_pos.2 proper) (by positivity)
    rw [(FpVal.isNumber_num n m e q).1 h, mul_assoc]
    cases n
    · rw [signFactor_false, one_mul, decide_eq_true magnitude]
      rfl
    · rw [signFactor_true, neg_one_mul, decide_eq_false (by linarith)]
      rfl

theorem fpLess_eq {x y : FpVal} {p q : Rat} (properX : x.Proper) (properY : y.Proper) (hx : x.isNumber p)
    (hy : y.isNumber q) : fpLess x y = decide (p < q) := by
  have sum := FpVal.add_isNumber false hy (FpVal.isNumber_neg hx)
  have order := (FpVal.add_proper false properY properX.neg).positive sum
  rw [show decide (p < q) = decide (0 < q + -p) from decide_eq_decide.2 (by rw [← sub_eq_add_neg, sub_pos]), ← order]
  unfold fpLess
  cases h : FpVal.add false y x.neg with
  | inf n =>
    rw [h] at sum
    exact sum.elim
  | nan => rfl
  | zero n => rfl
  | num n m e => rfl

theorem FpVal.flush_ieee (v : FpVal) (fmt : FpFormat) : v.flush fmt false = v := by
  cases v <;> rfl

theorem fpOperand_ieee {w : Word} (ieee : fpNI w = false) (fmt : FpFormat) (d : Dword) :
    fpOperand fmt w d = unpack d := by
  rw [fpOperand, ieee, FpVal.flush_ieee]

/-- Settles O47: less and greater are the signs of the exact difference. -/
theorem fpCompareOrdersValues : Obligations.FpCompareOrdersValues := by
  intro w a b ieee
  unfold fpCompare
  rw [fpOperand_ieee ieee, fpOperand_ieee ieee]
  refine ⟨fun nan => if_pos ((Bool.or_eq_true _ _).mpr nan), fun p q hp hq => ?_⟩
  have noNan : ¬(isNan a || isNan b) = true := by
    rw [not_isNan_of_isNumber hp, not_isNan_of_isNumber hq]
    exact Bool.false_ne_true
  dsimp only
  rw [if_neg noNan, fpLess_eq (unpack_proper a) (unpack_proper b) hp hq,
    fpLess_eq (unpack_proper b) (unpack_proper a) hq hp]
  refine ⟨fun less => ?_, fun greater => ?_, fun equal => ?_⟩
  · rw [if_pos (decide_eq_true less)]
  · rw [if_neg (by simpa using greater.le), if_pos (decide_eq_true greater)]
  · rw [if_neg (by simpa using equal.ge), if_neg (by simpa using equal.le)]

end Sys2Proof.Machine
end

section
/-! SUPPORT. Proofs/FloatExact.lean: rounding an exact rational magnitude to units of a power of two (R425), also where
a sticky bit stands for what follows (R436). -/

namespace Sys2Proof.Machine

/-! ### The integer a magnitude is rounded to (R425) -/

/-- A natural number with a sign. -/
def signedInt (neg : Bool) (q : Nat) : Int := if neg then -(q : Int) else q

theorem cast_signedInt (neg : Bool) (q : Nat) : ((signedInt neg q : Int) : Rat) = signFactor neg * q :=
  cast_signed neg q

/-- Whether rounding increases a magnitude `s` of integral part `f`. -/
def Rounding.raises (rn : Rounding) (neg : Bool) (s : Rat) (f : Nat) : Prop :=
  match rn with
  | .nearest => (f : Rat) + 1 / 2 < s ∨ (s = f + 1 / 2 ∧ f % 2 = 1)
  | .towardZero => False
  | .up => (f : Rat) < s ∧ neg = false
  | .down => (f : Rat) < s ∧ neg = true

/-- `r` is the magnitude `s`, of sign `neg`, rounded to an integer. -/
structure Rounded.Of (r : Rounded) (rn : Rounding) (neg : Bool) (s : Rat) : Prop where
  integer : rn.toInteger (signFactor neg * s) (signedInt neg r.q)
  increased : r.increased = decide (s < r.q)
  inexact : r.inexact = decide ((r.q : Rat) ≠ s)
  lower : s < r.q + 1
  upper : (r.q : Rat) < s + 1

theorem abs_signed_sub (neg : Bool) (s q : Rat) : |signFactor neg * s - signFactor neg * q| = |s - q| := by
  rw [← mul_sub, abs_mul, signFactor_abs, one_mul]

/-- The multiple next above or below, as the mode raises it, is the rounded integer. -/
theorem Rounding.toInteger_of_raises (rn : Rounding) (neg : Bool) {s : Rat} {f q : Nat} (low : (f : Rat) ≤ s)
    (high : s < f + 1) (up : rn.raises neg s f → q = f + 1) (stay : ¬rn.raises neg s f → q = f) :
    rn.toInteger (signFactor neg * s) (signedInt neg q) := by
  have nonneg : (0 : Rat) ≤ f := Nat.cast_nonneg f
  cases rn with
  | nearest =>
    have parity : signedInt neg q % 2 = 0 ↔ q % 2 = 0 := by
      cases neg
      · show (q : Int) % 2 = 0 ↔ _
        omega
      · show -(q : Int) % 2 = 0 ↔ _
        omega
    unfold Rounding.toInteger
    rw [cast_signedInt, abs_signed_sub, parity]
    by_cases raised : Rounding.nearest.raises neg s f
    · have half : (f : Rat) + 1 / 2 ≤ s := raised.elim (fun h => h.le) (fun h => h.1.ge)
      rw [up raised, Nat.cast_add, Nat.cast_one, abs_of_nonpos (by linarith)]
      refine ⟨by linarith, fun tie => ?_⟩
      obtain above | ⟨-, odd⟩ := raised
      · linarith
      · omega
    · have half : s ≤ f + 1 / 2 := not_lt.1 fun h => raised (.inl h)
      rw [stay raised, abs_of_nonneg (by linarith)]
      refine ⟨by linarith, fun tie => ?_⟩
      have even : ¬f % 2 = 1 := fun odd => raised (.inr ⟨by linarith, odd⟩)
      omega
  | towardZero =>
    unfold Rounding.toInteger
    rw [stay id, cast_signedInt, abs_mul, abs_mul, signFactor_abs, one_mul, one_mul, abs_of_nonneg nonneg,
      abs_of_nonneg (nonneg.trans low), mul_mul_mul_comm, signFactor_mul_self, one_mul]
    exact ⟨low, high, mul_nonneg (nonneg.trans low) nonneg⟩
  | up =>
    unfold Rounding.toInteger
    rw [cast_signedInt]
    by_cases raised : Rounding.up.raises neg s f
    · obtain ⟨above, rfl⟩ := raised
      rw [up ⟨above, rfl⟩, signFactor_false, Nat.cast_add, Nat.cast_one]
      constructor <;> linarith
    · rw [stay raised]
      cases neg
      · have same : (f : Rat) = s := le_antisymm low (not_lt.1 fun h => raised ⟨h, rfl⟩)
        rw [same]
        constructor <;> linarith
      · rw [signFactor_true]
        constructor <;> linarith
  | down =>
    unfold Rounding.toInteger
    rw [cast_signedInt]
    by_cases raised : Rounding.down.raises neg s f
    · obtain ⟨above, rfl⟩ := raised
      rw [up ⟨above, rfl⟩, signFactor_true, Nat.cast_add, Nat.cast_one]
      constructor <;> linarith
    · rw [stay raised]
      cases neg
      · rw [signFactor_false]
        constructor <;> linarith
      · have same : (f : Rat) = s := le_antisymm low (not_lt.1 fun h => raised ⟨h, rfl⟩)
        rw [same]
        constructor <;> linarith

theorem Rounding.raises.lt {rn : Rounding} {neg : Bool} {s : Rat} {f : Nat} (h : rn.raises neg s f) :
    (f : Rat) < s := by
  cases rn with
  | nearest => exact h.elim (fun h => by linarith) (fun h => by linarith [h.1])
  | towardZero => exact h.elim
  | up => exact h.1
  | down => exact h.1

/-- A magnitude of integral part `f`, increased or not as the mode says. -/
theorem Rounded.of_raises (rn : Rounding) (neg : Bool) {s : Rat} {f : Nat} {up inexact : Bool} (low : (f : Rat) ≤ s)
    (high : s < f + 1) (raised : up = true ↔ rn.raises neg s f) (part : inexact = true ↔ (f : Rat) ≠ s) :
    (⟨f + up.toNat, inexact, up⟩ : Rounded).Of rn neg s := by
  have integer := rn.toInteger_of_raises neg (q := f + up.toNat) low high
    (fun h => by rw [raised.2 h, Bool.toNat_true]) (fun h => by
      rw [Bool.eq_false_iff.2 (fun t => h (raised.1 t)), Bool.toNat_false, Nat.add_zero])
  cases up
  · refine ⟨integer, (decide_eq_false ?_).symm, Bool.eq_iff_iff.2 (part.trans ?_), ?_, ?_⟩ <;>
      simp only [Bool.toNat_false, Nat.add_zero]
    · exact low.not_gt
    · exact decide_eq_true_iff.symm
    · exact high
    · linarith
  · have above : (f : Rat) < s := (raised.1 rfl).lt
    refine ⟨integer, (decide_eq_true ?_).symm, ?_, ?_, ?_⟩ <;>
      simp only [Bool.toNat_true, Nat.cast_add, Nat.cast_one]
    · exact high
    · rw [part.2 above.ne, decide_eq_true high.ne']
    · linarith
    · linarith

/-! ### A magnitude and the number that represents it -/

/-- `t` and `m` lie on the same side of every multiple of `h`. -/
def SameSide (t : Rat) (m h : Nat) : Prop :=
  ∀ j : Nat, (t < (j * h : Nat) ↔ m < j * h) ∧ (((j * h : Nat) : Rat) < t ↔ j * h < m)

theorem sameSide_cast (m h : Nat) : SameSide m m h := fun _ => ⟨Nat.cast_lt, Nat.cast_lt⟩

/-- The natural number `m` stands for the magnitude `t`: it is `t`, or its lowest bit is sticky. -/
def Represents (m : Nat) (t : Rat) : Prop :=
  t = m ∨ (2 ^ 54 ≤ m ∧ m % 2 = 1 ∧ (m : Rat) - 1 < t ∧ t < m + 1)

theorem sameSide_of_sticky {m h : Nat} {t : Rat} (odd : m % 2 = 1) (below : (m : Rat) - 1 < t) (above : t < m + 1)
    (even : h % 2 = 0) : SameSide t m h := by
  intro j
  have multiple : j * h % 2 = 0 := by
    rw [Nat.mul_mod, even, Nat.mul_zero, Nat.zero_mod]
  have left : m < j * h → (m : Rat) + 1 ≤ (j * h : Nat) := fun h => by exact_mod_cast h
  have right : j * h < m → ((j * h : Nat) : Rat) + 1 ≤ m := fun h => by exact_mod_cast h
  have apart : m < j * h ∨ j * h < m := by omega
  obtain less | greater := apart
  · exact ⟨⟨fun _ => less, fun _ => by linarith [left less]⟩,
      ⟨fun h => by linarith [left less], fun h => absurd less h.asymm⟩⟩
  · exact ⟨⟨fun h => by linarith [right greater], fun h => absurd greater h.asymm⟩,
      ⟨fun _ => greater, fun _ => by linarith [right greater]⟩⟩

theorem cast_two_mul_half (f : Nat) : ((2 * f : Nat) : Rat) / 2 = f := by
  rw [Nat.cast_mul, Nat.cast_ofNat, mul_div_cancel_left₀ _ (by norm_num)]

section
variable {t : Rat} {m h : Nat}

/-- The multiples of `h` as halves of a unit `2 * h`. -/
theorem SameSide.half_lt (same : SameSide t m h) (pos : 0 < h) (j : Nat) :
    (j : Rat) / 2 < t / (2 * h : Nat) ↔ j * h < m := by
  have hpos : (0 : Rat) < h := Nat.cast_pos.2 pos
  have scaled : (j : Rat) / 2 * (2 * h) = j * h := by ring
  rw [← (same j).2, lt_div_iff₀ (by positivity), Nat.cast_mul, Nat.cast_mul, Nat.cast_ofNat, scaled]

theorem SameSide.lt_half (same : SameSide t m h) (pos : 0 < h) (j : Nat) :
    t / (2 * h : Nat) < (j : Rat) / 2 ↔ m < j * h := by
  have hpos : (0 : Rat) < h := Nat.cast_pos.2 pos
  have scaled : (j : Rat) / 2 * (2 * h) = j * h := by ring
  rw [← (same j).1, div_lt_iff₀ (by positivity), Nat.cast_mul, Nat.cast_mul, Nat.cast_ofNat, scaled]

theorem SameSide.eq_half (same : SameSide t m h) (pos : 0 < h) (j : Nat) :
    t / (2 * h : Nat) = (j : Rat) / 2 ↔ m = j * h := by
  have less := same.lt_half pos j
  have greater := same.half_lt pos j
  constructor
  · intro eq
    rw [eq] at less greater
    have := mt less.2 (lt_irrefl _)
    have := mt greater.2 (lt_irrefl _)
    omega
  · intro eq
    exact le_antisymm (not_lt.1 fun h => by have := greater.1 h; omega) (not_lt.1 fun h => by have := less.1 h; omega)

/-- What rounding a representative drops decides as the magnitude does. -/
theorem SameSide.increases_iff (same : SameSide t m h) (pos : 0 < h) (rn : Rounding) (neg : Bool) :
    rn.increases neg m (2 * h) = true ↔ rn.raises neg (t / (2 * h : Nat)) (m / (2 * h)) := by
  obtain ⟨f, hf⟩ : ∃ f, f = m / (2 * h) := ⟨_, rfl⟩
  have whole := Nat.div_add_mod m (2 * h)
  rw [← hf, Nat.mul_right_comm] at whole
  have above : (f : Rat) < t / (2 * h : Nat) ↔ m % (2 * h) ≠ 0 := by
    have := same.half_lt pos (2 * f)
    rw [cast_two_mul_half] at this
    rw [this]
    omega
  rw [← hf]
  cases rn with
  | nearest =>
    have half : ((2 * f + 1 : Nat) : Rat) / 2 = f + 1 / 2 := by
      rw [Nat.cast_add, Nat.cast_mul, Nat.cast_ofNat, Nat.cast_one]
      ring
    have more := same.half_lt pos (2 * f + 1)
    have tie := same.eq_half pos (2 * f + 1)
    rw [half, Nat.add_mul, Nat.one_mul] at more tie
    unfold Rounding.raises Rounding.increases
    simp only [more, tie, Bool.or_eq_true, Bool.and_eq_true, decide_eq_true_iff, beq_iff_eq, ← hf]
    omega
  | towardZero => exact ⟨fun h => (nomatch h), fun h => h.elim⟩
  | up =>
    unfold Rounding.raises Rounding.increases
    simp only [above, Bool.and_eq_true, bne_iff_ne, Bool.not_eq_true']
  | down =>
    unfold Rounding.raises Rounding.increases
    simp only [above, Bool.and_eq_true, bne_iff_ne]

/-- The integral part of a magnitude is that of its representative. -/
theorem SameSide.floor (same : SameSide t m h) (pos : 0 < h) :
    ((m / (2 * h) : Nat) : Rat) ≤ t / (2 * h : Nat) ∧ t / (2 * h : Nat) < (m / (2 * h) : Nat) + 1 ∧
      (m % (2 * h) ≠ 0 ↔ ((m / (2 * h) : Nat) : Rat) ≠ t / (2 * h : Nat)) := by
  obtain ⟨f, hf⟩ : ∃ f, f = m / (2 * h) := ⟨_, rfl⟩
  have whole := Nat.div_add_mod m (2 * h)
  have part := Nat.mod_lt m (show 0 < 2 * h by omega)
  rw [← hf, Nat.mul_right_comm] at whole
  have below := same.lt_half pos (2 * f)
  have equal := same.eq_half pos (2 * f)
  have next := same.lt_half pos (2 * (f + 1))
  rw [cast_two_mul_half] at below equal next
  rw [Nat.cast_add, Nat.cast_one, Nat.mul_add, Nat.add_mul] at next
  rw [← hf]
  refine ⟨not_lt.1 fun h => ?_, next.2 (by omega), ?_⟩
  · have := below.1 h
    omega
  · rw [ne_comm (a := (f : Rat)), Ne, Ne, equal]
    omega

end

/-! ### Rounding to units of a power of two (R425) -/

theorem Represents.sameSide {m h : Nat} {t : Rat} (rep : Represents m t) (coarse : t = m ∨ h % 2 = 0) :
    SameSide t m h := by
  obtain rfl | ⟨-, odd, below, above⟩ := rep
  · exact sameSide_cast m h
  · obtain rfl | even := coarse
    · exact sameSide_cast m h
    · exact sameSide_of_sticky odd below above even

/-- `roundAt` rounds the magnitude that its argument represents, if a sticky bit lies below the half unit. -/
theorem roundAt_of (rn : Rounding) (neg : Bool) {m : Nat} {t : Rat} {e u : Int} (rep : Represents m t)
    (coarse : t = m ∨ e + 2 ≤ u) : (roundAt rn neg m e u).Of rn neg (t * 2 ^ e / 2 ^ u) := by
  by_cases finer : u ≤ e
  · have exact0 : t = m := coarse.resolve_right (by omega)
    have value : t * 2 ^ e / 2 ^ u = (m * 2 ^ (e - u).toNat : Nat) := by
      rw [exact0, div_eq_iff (by positivity), mul_two_zpow_of_le m finer]
    rw [roundAt_exact rn neg m finer, value]
    refine Rounded.of_raises rn neg (up := false) le_rfl (lt_add_one _) ?_ ?_
    · exact ⟨fun h => (nomatch h), fun h => absurd h.lt (lt_irrefl _)⟩
    · exact ⟨fun h => (nomatch h), fun h => absurd rfl h⟩
  · obtain ⟨k, rfl⟩ : ∃ k : Nat, u = e + (k + 1 : Nat) := ⟨(u - e - 1).toNat, by omega⟩
    have unit : 2 ^ (k + 1) = 2 * 2 ^ k := by rw [Nat.pow_succ, Nat.mul_comm]
    have value : t * 2 ^ e / 2 ^ (e + (k + 1 : Nat) : Int) = t / (2 * 2 ^ k : Nat) := by
      rw [zpow_add₀ (by norm_num), mul_comm ((2 : Rat) ^ e), mul_div_mul_right _ _ (by positivity), zpow_natCast,
        ← unit, Nat.cast_pow, Nat.cast_ofNat]
    have same : SameSide t m (2 ^ k) := rep.sameSide (coarse.imp_right fun h => by
      obtain ⟨i, rfl⟩ : ∃ i, k = i + 1 := ⟨k - 1, by omega⟩
      rw [Nat.pow_succ, Nat.mul_mod_left])
    have pos : 0 < 2 ^ k := Nat.two_pow_pos k
    obtain ⟨low, high, part⟩ := same.floor pos
    rw [roundAt_shift rn neg m e (by omega), value, unit]
    exact Rounded.of_raises rn neg low high (same.increases_iff pos rn neg) (bne_iff_ne.trans part)

end Sys2Proof.Machine
end

section
/-! SUPPORT. Proofs/FloatToInteger.lean: conversions to an integer (O48). -/

namespace Sys2Proof.Machine

/-! ### What is delivered (R451) -/

/-- A conversion raises exception bits only. -/
theorem fpToInt_exceptionsOnly (w : Word) (rn : Rounding) (b : Dword) : exceptionsOnly (fpToInt w rn b).exc := by
  have conversion : exceptionsOnly fpVXCVI := by unfold exceptionsOnly; decide
  have signaling : exceptionsOnly (fpVXCVI ||| (if isSnan b then fpVXSNAN else 0)) :=
    or_and_eq_zero (by decide) (ite_and_eq_zero (by decide) (by decide))
  have inexact (r : Bool) : exceptionsOnly (if r then fpXX else 0) := ite_and_eq_zero (by decide) (by decide)
  unfold fpToInt
  dsimp only
  cases fpOperand fmtDouble w b with
  | nan => exact signaling
  | inf n => exact conversion
  | zero n => exact BitVec.zero_and
  | num n m e =>
    dsimp only
    split
    · exact conversion
    split
    · exact conversion
    · exact inexact _

section
variable {s : State} {frD : Reg} {r : IntOut} {rc : Bool} {i : Instr}

theorem State.fpWork_withInt : s.fpWork (s.withInt frD r) frD := by
  obtain ⟨exc, write, fr, fi⟩ := r
  cases write with
  | none => exact ⟨rfl, fun _ _ => ⟨rfl, rfl⟩⟩
  | some v => exact s.fpWork_putFpr false frD _ _ _

theorem State.withInt_fpscr : ∃ c, (s.withInt frD r).fpscr =
    fpSettle s.fpscr (fpscrStatus (s.fpscr ||| r.exc) c r.fr r.fi) := by
  obtain ⟨exc, write, fr, fi⟩ := r
  cases write with
  | none => exact ⟨none, rfl⟩
  | some v => exact ⟨some _, rfl⟩

theorem State.withInt_frD : (match r.write with
      | some v => ((s.withInt frD r).readFpr frD).extractLsb' 0 32 = v
      | none => (s.withInt frD r).readFpr frD = s.readFpr frD) ∧
    s.fpWrittenBy (s.withInt frD r) frD false r.write.isSome := by
  obtain ⟨exc, write, fr, fi⟩ := r
  cases write with
  | none => exact ⟨rfl, rfl⟩
  | some v =>
    refine ⟨?_, State.fprIsSingle_putFpr_same _ false _ _⟩
    refine (congrArg (BitVec.extractLsb' 0 32) (State.readFpr_putFpr_same _ false _ _)).trans ?_
    exact BitVec.extractLsb'_append_eq_right

/-- A conversion completes and delivers its outcome. -/
theorem State.putInt_done (quiet : s.fpQuiet) (ho : exceptionsOnly r.exc)
    (run : exec i s = s.needFp (s.putInt frD r rc)) :
    ∃ t, exec i s = .next t ∧ s.fpDoneAs t frD rc ∧
      (match r.write with
        | some v => (t.readFpr frD).extractLsb' 0 32 = v
        | none => t.readFpr frD = s.readFpr frD) ∧ s.fpWrittenBy t frD false r.write.isSome ∧
      beBit t.fpscr 13 = r.fr ∧ beBit t.fpscr 14 = r.fi ∧
      t.fpscr &&& fpExceptions = (s.fpscr ||| r.exc) &&& fpExceptions ∧ t.fpscr &&& 0xFF = s.fpscr &&& 0xFF ∧
      fpSummarized t.fpscr := by
  rw [State.putInt_eq] at run
  obtain ⟨t, done, as, same⟩ := State.fpWork_withInt.completes quiet run
  obtain ⟨target, written⟩ := State.withInt_frD (s := s) (frD := frD) (r := r)
  obtain ⟨c, fpscr⟩ := State.withInt_fpscr (s := s) (frD := frD) (r := r)
  obtain ⟨raised, -, control, summary⟩ := fpSettle_adds (w := s.fpscr) ho fun k hk outside =>
    beBit_fpscrStatus_other _ c r.fr r.fi hk outside
  rw [← same.fpr] at target
  rw [← same.fpscr] at fpscr
  refine ⟨t, done, as, target, (same.single frD).trans written, ?_⟩
  rw [fpscr]
  refine ⟨?_, ?_, raised, control, summary⟩
  · rw [beBit_fpSettle _ _ (by omega), beBit_fpscrStatus_fr]
  · rw [beBit_fpSettle _ _ (by omega), beBit_fpscrStatus_fi]

end

/-! ### The integer (R451) -/

theorem Rounding.toInteger_zero (rn : Rounding) : rn.toInteger 0 0 := by
  have zero := rn.toInteger_of_raises false (s := 0) (f := 0) (q := 0) (by norm_num) (by norm_num)
    (fun h => absurd h.lt (by norm_num)) fun _ => rfl
  rwa [mul_zero] at zero

/-- The range test, the word, FR and FI of the rounded magnitude, as of the rounded number. -/
theorem fpToInt_num {w : Word} (ieee : fpNI w = false) {rn : Rounding} {b : Dword} {n : Bool} {m : Nat} {e : Int}
    (hb : unpack b = .num n m e) {s : Rat} (hr : (roundAt rn n m e 0).Of rn n s) (nonneg : 0 ≤ s) :
    let z := signedInt n (roundAt rn n m e 0).q
    let x := signFactor n * s
    fpToInt w rn b = (if z < -2147483648 then invalidInt w (beMask 23) 0x80000000
      else if 2147483647 < z then invalidInt w (beMask 23) 0x7FFFFFFF
      else ⟨if (z : Rat) = x then 0 else beMask 6, some (BitVec.ofInt 32 z), decide (|x| < |(z : Rat)|),
        decide ((z : Rat) ≠ x)⟩) := by
  intro z x
  unfold fpToInt
  dsimp only
  rw [fpOperand_ieee ieee, hb, ieee]
  dsimp only
  obtain ⟨-, increased, inexact, -, -⟩ := hr
  have grew : decide (|x| < |(z : Rat)|) = (roundAt rn n m e 0).increased := by
    rw [increased, cast_signedInt, abs_mul, abs_mul, signFactor_abs, one_mul, one_mul, abs_of_nonneg nonneg,
      abs_of_nonneg (Nat.cast_nonneg _)]
  have moved : decide ((z : Rat) ≠ x) = (roundAt rn n m e 0).inexact := by
    rw [inexact, cast_signedInt]
    exact decide_eq_decide.2 (not_congr (mul_right_inj' (signFactor_ne_zero n)))
  have xx : (if (z : Rat) = x then 0 else beMask 6 : Word) = if (roundAt rn n m e 0).inexact then fpXX else 0 := by
    rw [← moved]
    by_cases h : (z : Rat) = x
    · rw [if_pos h, if_neg (by simpa using h)]
    · rw [if_neg h, if_pos (by simpa using h)]
      rfl
  rw [grew, moved, xx]
  clear grew moved xx increased inexact
  obtain ⟨q, hq⟩ : ∃ q, q = (roundAt rn n m e 0).q := ⟨_, rfl⟩
  have hz : z = signedInt n q := by rw [hq]
  rw [hz, ← hq]
  cases n
  · have value : signedInt false q = q := rfl
    rw [value, if_neg (show ¬((q : Int) < -2147483648) by omega),
      if_neg (show ¬(false = true ∧ 2147483648 < q) from fun h => Bool.false_ne_true h.1)]
    by_cases high : 2147483647 < q
    · rw [if_pos (show false = false ∧ 2147483647 < q from ⟨rfl, high⟩),
        if_pos (show 2147483647 < (q : Int) by omega)]
      rfl
    · rw [if_neg (show ¬(false = false ∧ 2147483647 < q) from fun h => high h.2),
        if_neg (show ¬(2147483647 < (q : Int)) by omega), BitVec.ofInt_natCast]
      rfl
  · have value : signedInt true q = -q := rfl
    rw [value, if_neg (show ¬(true = false ∧ 2147483647 < q) from fun h => Bool.false_ne_true h.1.symm),
      if_neg (show ¬(2147483647 < -(q : Int)) by omega)]
    by_cases low : 2147483648 < q
    · rw [if_pos (show true = true ∧ 2147483648 < q from ⟨rfl, low⟩),
        if_pos (show -(q : Int) < -2147483648 by omega)]
      rfl
    · rw [if_neg (show ¬(true = true ∧ 2147483648 < q) from fun h => low h.2),
        if_neg (show ¬(-(q : Int) < -2147483648) by omega), BitVec.ofInt_neg, BitVec.ofInt_natCast]
      rfl

/-- Settles O48: a conversion is one operation, and its integer the magnitude rounded to units, with the sign. -/
theorem fpToInteger : Obligations.FpToInteger := by
  refine ⟨fun s frD frB rc quiet => ?_, fun w rn b x ieee number => ?_⟩
  · exact ⟨State.putInt_done quiet (fpToInt_exceptionsOnly ..) rfl,
      State.putInt_done quiet (fpToInt_exceptionsOnly ..) rfl⟩
  · cases hb : unpack b with
    | nan =>
      rw [hb] at number
      exact number.elim
    | inf n =>
      rw [hb] at number
      exact number.elim
    | zero n =>
      rw [hb] at number
      obtain rfl := number
      refine ⟨0, rn.toInteger_zero, ?_⟩
      unfold fpToInt
      dsimp only
      rw [fpOperand_ieee ieee, hb]
      simp
    | num n m e =>
      rw [hb, FpVal.isNumber_num, mul_assoc] at number
      have rounded := roundAt_of rn n (m := m) (e := e) (u := 0) (.inl rfl) (.inl rfl)
      rw [zpow_zero, div_one] at rounded
      rw [number]
      exact ⟨_, rounded.integer, fpToInt_num ieee hb rounded (by positivity)⟩

end Sys2Proof.Machine
end

section
/-! SUPPORT. Proofs/FloatEncoding.lean: the exponent of the leading bit, and the double that encodes a number (R421). -/

namespace Sys2Proof.Machine

/-! ### The exponent of the leading bit -/

theorem two_pow_log2_le {m : Nat} (pos : 0 < m) : 2 ^ Nat.log2 m ≤ m := Nat.log2_self_le pos.ne'

theorem leadExp_le {m : Nat} (pos : 0 < m) (e : Int) : (2 : Rat) ^ leadExp m e ≤ m * 2 ^ e := by
  have low : ((2 ^ Nat.log2 m : Nat) : Rat) ≤ m := Nat.cast_le.2 (two_pow_log2_le pos)
  rw [Nat.cast_pow, Nat.cast_ofNat] at low
  show (2 : Rat) ^ (e + (Nat.log2 m : Int)) ≤ _
  rw [zpow_add₀ (by norm_num), zpow_natCast, mul_comm]
  exact mul_le_mul_of_nonneg_right low (by positivity)

theorem lt_leadExp (m : Nat) (e : Int) : (m : Rat) * 2 ^ e < 2 ^ (leadExp m e + 1) := by
  have high : (m : Rat) < (2 ^ (Nat.log2 m + 1) : Nat) := Nat.cast_lt.2 Nat.lt_log2_self
  rw [Nat.cast_pow, Nat.cast_ofNat] at high
  have exponent : leadExp m e + 1 = ((Nat.log2 m + 1 : Nat) : Int) + e := by
    show e + (Nat.log2 m : Int) + 1 = _
    omega
  rw [exponent, zpow_add₀ (by norm_num), zpow_natCast]
  exact mul_lt_mul_of_pos_right high (by positivity)

theorem two_zpow_lt_iff {a b : Int} : (2 : Rat) ^ a < 2 ^ b ↔ a < b := zpow_lt_zpow_iff_right₀ (by norm_num)

theorem two_zpow_le_iff {a b : Int} : (2 : Rat) ^ a ≤ 2 ^ b ↔ a ≤ b := zpow_le_zpow_iff_right₀ (by norm_num)

/-- The leading bit is beyond an exponent exactly if the number reaches the next power of two. -/
theorem lt_leadExp_iff {m : Nat} (pos : 0 < m) (e k : Int) : k < leadExp m e ↔ (2 : Rat) ^ (k + 1) ≤ m * 2 ^ e := by
  refine ⟨fun h => (two_zpow_le_iff.2 (by omega)).trans (leadExp_le pos e), fun h => ?_⟩
  have := two_zpow_lt_iff.1 (h.trans_lt (lt_leadExp m e))
  omega

/-! ### A double put together from its fields -/

theorem fields_of_body (neg : Bool) {E F : Nat} (hE : E < 2048) (hF : F < 2 ^ 52) {d : Dword}
    (hd : d = bit1 neg ++ BitVec.ofNat 63 (E * 2 ^ 52 + F)) : dSign d = neg ∧ dExp d = E ∧ dFrac d = F := by
  have value : d.toNat = neg.toNat * 2 ^ 63 + (E * 2 ^ 52 + F) := by
    rw [hd, toNat_append_eq, bit1_toNat, BitVec.toNat_ofNat, Nat.mod_eq_of_lt (by omega)]
  rw [toNat_fields] at value
  have exponent := dExp_lt d
  have fraction := dFrac_lt d
  cases sign : dSign d <;> cases neg <;> rw [sign] at value <;> norm_num at value ⊢ <;> omega

/-- `encodeDouble` encodes a number of at most 53 bits in the range of the format. -/
theorem encodeDouble_isNumber (neg : Bool) {q : Nat} {x : Int} (pos : 0 < q) (fits : q ≤ 2 ^ 53) (low : -1074 ≤ x)
    (high : (q : Rat) * 2 ^ x < 2 ^ (1024 : Int)) :
    (unpack (encodeDouble neg q x)).isNumber (signFactor neg * (q * 2 ^ x)) := by
  have lead : leadExp q x ≤ 1023 := not_lt.1 fun h => ((lt_leadExp_iff pos x 1023).1 h).not_gt high
  have lower := two_pow_log2_le pos
  have upper := Nat.lt_log2_self (n := q)
  have leadEq : leadExp q x = x + (Nat.log2 q : Int) := rfl
  by_cases denormal : leadExp q x < -1022
  · have small : q * 2 ^ (x + 1074).toNat < 2 ^ 52 := by
      calc q * 2 ^ (x + 1074).toNat < 2 ^ (Nat.log2 q + 1) * 2 ^ (x + 1074).toNat :=
            Nat.mul_lt_mul_of_pos_right upper (Nat.two_pow_pos _)
        _ = 2 ^ (Nat.log2 q + 1 + (x + 1074).toNat) := (Nat.pow_add ..).symm
        _ ≤ 2 ^ 52 := Nat.pow_le_pow_right (by norm_num) (by omega)
    have body : encodeDouble neg q x = bit1 neg ++ BitVec.ofNat 63 (0 * 2 ^ 52 + q * 2 ^ (x + 1074).toNat) := by
      unfold encodeDouble
      dsimp only
      rw [if_neg pos.ne', if_pos denormal, Nat.zero_mul, Nat.zero_add]
    obtain ⟨sign, exponent, fraction⟩ := fields_of_body neg (by norm_num) small body
    have number := unpack_isNumber (d := encodeDouble neg q x) (by omega)
    rw [sign, exponent, fraction, if_pos rfl, ← sub_neg_eq_add, mul_two_zpow_of_le q low] at number
    exact number
  · obtain ⟨M, hM⟩ : ∃ M, M * 2 ^ Nat.log2 q = q * 2 ^ 52 := by
      by_cases short : Nat.log2 q ≤ 52
      · refine ⟨q * 2 ^ (52 - Nat.log2 q), ?_⟩
        rw [Nat.mul_assoc, ← Nat.pow_add, Nat.sub_add_cancel short]
      · have : 2 ^ 53 ≤ 2 ^ Nat.log2 q := Nat.pow_le_pow_right (by norm_num) (by omega)
        refine ⟨2 ^ 52, ?_⟩
        rw [show q = 2 ^ Nat.log2 q by omega, Nat.log2_two_pow, Nat.mul_comm]
    have quotient : q * 2 ^ 52 / 2 ^ Nat.log2 q = M := by
      rw [← hM, Nat.mul_div_cancel _ (Nat.two_pow_pos _)]
    have atLeast : 2 ^ 52 ≤ M := by
      refine Nat.le_of_mul_le_mul_right (c := 2 ^ Nat.log2 q) ?_ (Nat.two_pow_pos _)
      omega
    have below : M < 2 ^ 53 := by
      refine Nat.lt_of_mul_lt_mul_right (a := 2 ^ Nat.log2 q) ?_
      rw [Nat.pow_succ] at upper
      omega
    have body : encodeDouble neg q x =
        bit1 neg ++ BitVec.ofNat 63 ((leadExp q x + 1023).toNat * 2 ^ 52 + (M - 2 ^ 52)) := by
      unfold encodeDouble
      dsimp only
      rw [if_neg pos.ne', if_neg denormal, quotient]
    obtain ⟨sign, exponent, fraction⟩ := fields_of_body neg (by omega) (by omega) body
    have number := unpack_isNumber (d := encodeDouble neg q x) (by omega)
    have significand : (2 ^ 52 + (M - 2 ^ 52 : Nat) : Rat) = M := by
      rw [Nat.cast_sub atLeast, Nat.cast_pow, Nat.cast_ofNat]
      ring
    have scaled : (M : Rat) * 2 ^ Nat.log2 q = q * 2 ^ 52 := by exact_mod_cast hM
    have unit : (((leadExp q x + 1023).toNat : Int) - 1075) = x + (Nat.log2 q : Int) - 52 := by omega
    have value : (M : Rat) * 2 ^ (x + (Nat.log2 q : Int) - 52) = q * 2 ^ x := by
      rw [two_zpow_sub_52, zpow_add₀ (by norm_num), zpow_natCast, mul_div_assoc', mul_left_comm, scaled, ← mul_assoc,
        mul_div_cancel_right₀ _ (by norm_num), mul_comm]
    rw [sign, exponent, fraction, if_neg (by omega), significand, unit, value] at number
    exact number

theorem unpack_encodeDouble_zero (neg : Bool) : unpack (encodeDouble neg 0 0) = .zero neg := by
  cases neg <;> decide +kernel

end Sys2Proof.Machine
end

section
/-! SUPPORT. Proofs/FloatRoundTo.lean: a value rounded to a format is the number it represents rounded once (R425 to
R427). -/

namespace Sys2Proof.Machine

/-! ### Formats (R421) -/

/-- What rounding uses of a format. -/
structure FpFormat.Sound (fmt : FpFormat) : Prop where
  prec_pos : 0 < fmt.prec
  prec_le : fmt.prec ≤ 53
  emin_ge : -1074 ≤ fmt.emin - ((fmt.prec : Int) - 1)
  emin_lt : fmt.emin < fmt.emax
  emax_le : fmt.emax ≤ 1023
  largest : ∀ neg, (unpack (bit1 neg ++ fmt.largest.extractLsb' 0 63)).isNumber
    ((if neg then -1 else 1) * (2 ^ fmt.prec - 1) * 2 ^ (fmt.emax - ((fmt.prec : Int) - 1)))

theorem fmtDouble_sound : fmtDouble.Sound := by
  refine ⟨by decide, by decide, by decide, by decide, by decide, fun neg => ?_⟩
  have value : unpack (bit1 neg ++ fmtDouble.largest.extractLsb' 0 63) = .num neg (2 ^ 53 - 1) 971 := by
    cases neg <;> decide +kernel
  have significand : ((2 ^ 53 - 1 : Nat) : Rat) = 2 ^ 53 - 1 := by norm_num
  rw [value, FpVal.isNumber_num, significand]
  rfl

theorem fmtSingle_sound : fmtSingle.Sound := by
  refine ⟨by decide, by decide, by decide, by decide, by decide, fun neg => ?_⟩
  have value : unpack (bit1 neg ++ fmtSingle.largest.extractLsb' 0 63) = .num neg ((2 ^ 24 - 1) * 2 ^ 29) 75 := by
    cases neg <;> decide +kernel
  have significand : (((2 ^ 24 - 1) * 2 ^ 29 : Nat) : Rat) * 2 ^ (75 : Int) = (2 ^ 24 - 1) * 2 ^ (104 : Int) := by
    norm_num
  rw [value, FpVal.isNumber_num, mul_assoc (signFactor neg), significand, ← mul_assoc]
  rfl

/-- The unit in the last place of a binade: of the smallest one for a tiny number. -/
def FpFormat.unitExp (fmt : FpFormat) (lead : Int) : Int := max lead fmt.emin - ((fmt.prec : Int) - 1)

/-! ### Delivery of a rounded number -/

section
variable {fmt : FpFormat} {w : Word} {flip n : Bool} {a : Rat} {lead : Int}

theorem signed_ne_zero (n : Bool) (pos : 0 < a) : signFactor n * a ≠ 0 := mul_ne_zero (signFactor_ne_zero n) pos.ne'

theorem signed_lt_zero (n : Bool) (pos : 0 < a) : decide (signFactor n * a < 0) = n := by
  rw [Bool.eq_iff_iff, decide_eq_true_iff]
  exact signFactor_mul_neg_iff n pos

theorem abs_signed (n : Bool) (nonneg : 0 ≤ a) : |signFactor n * a| = a := by
  rw [abs_mul, signFactor_abs, one_mul, abs_of_nonneg nonneg]

theorem signedInt_mul (n : Bool) (q : Nat) (unit : Rat) :
    ((signedInt n q : Int) : Rat) * unit = signFactor n * (q * unit) := by
  rw [cast_signedInt, mul_assoc]

theorem signedInt_eq_zero_iff (n : Bool) (q : Nat) : signedInt n q = 0 ↔ q = 0 := by
  cases n
  · exact Int.natCast_eq_zero
  · exact neg_eq_zero.trans Int.natCast_eq_zero

/-- A number that stays in range after rounding is delivered with its class, FR, FI and exception bits. -/
theorem delivers_inRange {r : Rounded} {d : Dword} {c : BitVec 5} (pos : 0 < a) (low : (2 : Rat) ^ lead ≤ a)
    (high : a < 2 ^ (lead + 1)) (rounded : r.Of (fpRN w) n (a / 2 ^ fmt.unitExp lead))
    (small : (r.q : Rat) * 2 ^ fmt.unitExp lead < 2 ^ (fmt.emax + 1))
    (value : (unpack d).isNumber (signFactor (n != flip) * (r.q * 2 ^ fmt.unitExp lead)))
    (class_eq : c = if r.q = 0 then classZero (n != flip) else if (r.q : Rat) * 2 ^ fmt.unitExp lead < 2 ^ fmt.emin then
      classDenormal (n != flip) else classNormal (n != flip)) :
    fmt.delivers w flip (signFactor n * a) ⟨if r.inexact then (if lead < fmt.emin then fpUX ||| fpXX else fpXX) else 0,
      some (d, c), some r.increased, some r.inexact⟩ := by
  have unitPos : (0 : Rat) < 2 ^ fmt.unitExp lead := by positivity
  have nonneg : (0 : Rat) ≤ r.q * 2 ^ fmt.unitExp lead := by positivity
  obtain ⟨integer, increased, inexact, -, -⟩ := rounded
  have grew : r.increased = decide (a < r.q * 2 ^ fmt.unitExp lead) := by
    rw [increased]
    exact decide_eq_decide.2 (div_lt_iff₀ unitPos)
  have moved : r.inexact = true ↔ ¬signFactor n * (r.q * 2 ^ fmt.unitExp lead) = signFactor n * a := by
    rw [inexact, decide_eq_true_iff, mul_right_inj' (signFactor_ne_zero n), Ne, eq_div_iff unitPos.ne']
  have absolute : |(signedInt n r.q : Rat) * 2 ^ fmt.unitExp lead| = r.q * 2 ^ fmt.unitExp lead := by
    rw [signedInt_mul, abs_signed n nonneg]
  unfold FpFormat.delivers
  intro neg opp
  have negative : neg = (n != flip) := congrArg (· != flip) (signed_lt_zero n pos)
  have opposite : opp * signedInt n r.q * 2 ^ fmt.unitExp lead =
      signFactor (n != flip) * (r.q * 2 ^ fmt.unitExp lead) := by
    rw [mul_assoc, signedInt_mul, ← mul_assoc, mul_comm opp, signFactor_bne]
    rfl
  refine ⟨fun zero => absurd zero (signed_ne_zero n pos), fun _ => ⟨lead, signedInt n r.q, ?_⟩⟩
  rw [abs_signed n pos.le]
  refine ⟨low, high, ?_⟩
  intro unit
  have unit_eq : unit = 2 ^ fmt.unitExp lead := rfl
  rw [unit_eq, mul_div_assoc, absolute, negative, opposite, signedInt_mul]
  refine ⟨integer, d, c, rfl, ?_⟩
  rw [if_neg small.not_ge]
  refine ⟨value, ?_, ?_, ?_, ?_⟩
  · rw [class_eq]
    exact if_congr (signedInt_eq_zero_iff n r.q).symm rfl rfl
  · exact congrArg some grew
  · exact congrArg some (Bool.eq_iff_iff.2 (moved.trans decide_eq_true_iff.symm))
  · by_cases equal : signFactor n * (r.q * 2 ^ fmt.unitExp lead) = signFactor n * a
    · rw [if_pos equal]
      exact if_neg fun h => moved.1 h equal
    · rw [if_neg equal]
      exact if_pos (moved.2 equal)

/-- A number that leaves the range is delivered as infinity or the largest number. -/
theorem delivers_overflow (sound : fmt.Sound) {r : Rounded} (pos : 0 < a) (low : (2 : Rat) ^ lead ≤ a)
    (high : a < 2 ^ (lead + 1)) (rounded : r.Of (fpRN w) n (a / 2 ^ fmt.unitExp lead))
    (large : (2 : Rat) ^ (fmt.emax + 1) ≤ r.q * 2 ^ fmt.unitExp lead) :
    fmt.delivers w flip (signFactor n * a) (if overflowsToInf (fpRN w) n then
      ⟨fpOX ||| fpXX, some (infDouble (n != flip), classInf (n != flip)), none, some true⟩
      else ⟨fpOX ||| fpXX, some (bit1 (n != flip) ++ fmt.largest.extractLsb' 0 63, classNormal (n != flip)), none,
        some true⟩) := by
  have nonneg : (0 : Rat) ≤ r.q * 2 ^ fmt.unitExp lead := by positivity
  have infinity (neg : Bool) : unpack (infDouble neg) = .inf neg := by cases neg <;> decide +kernel
  have beyond : (2 : Rat) ^ (fmt.emax + 1) ≤ |(signedInt n r.q : Rat) * 2 ^ fmt.unitExp lead| := by
    rwa [signedInt_mul, abs_signed n nonneg]
  unfold FpFormat.delivers
  intro neg opp
  have negative : neg = (n != flip) := congrArg (· != flip) (signed_lt_zero n pos)
  refine ⟨fun zero => absurd zero (signed_ne_zero n pos), fun _ => ⟨lead, signedInt n r.q, ?_⟩⟩
  rw [abs_signed n pos.le]
  refine ⟨low, high, ?_⟩
  intro unit
  have unit_eq : unit = 2 ^ fmt.unitExp lead := rfl
  rw [unit_eq, mul_div_assoc, negative, signed_lt_zero n pos]
  refine ⟨rounded.integer, ?_⟩
  by_cases inf : overflowsToInf (fpRN w) n = true
  · rw [if_pos inf]
    refine ⟨_, _, rfl, ?_⟩
    rw [if_pos beyond, if_pos inf]
    exact ⟨rfl, rfl, rfl, infinity _, rfl⟩
  · rw [if_neg inf]
    refine ⟨_, _, rfl, ?_⟩
    rw [if_pos beyond, if_neg inf]
    exact ⟨rfl, rfl, rfl, sound.largest _, rfl⟩

end

/-! ### The branches of `roundTo` -/

/-- The exponent of the unit in which `m * 2^e` has the precision of the format. -/
def FpFormat.fullUnit (fmt : FpFormat) (m : Nat) (e : Int) : Int := leadExp m e - Int.ofNat (fmt.prec - 1)

/-- The exponent of the smallest unit of the format. -/
def FpFormat.leastUnit (fmt : FpFormat) : Int := fmt.emin - Int.ofNat (fmt.prec - 1)

section
variable {fmt : FpFormat} {w : Word} {flip n : Bool} {m : Nat} {e : Int}

theorem roundTo_overflow (disabled : beBit w 25 = false)
    (beyond : fmt.emax < leadExp (roundAt (fpRN w) n m e (fmt.fullUnit m e)).q (fmt.fullUnit m e)) :
    roundTo fmt w flip (.num n m e) = if overflowsToInf (fpRN w) n then
      ⟨fpOX ||| fpXX, some (infDouble (n != flip), classInf (n != flip)), none, some true⟩
      else ⟨fpOX ||| fpXX, some (bit1 (n != flip) ++ fmt.largest.extractLsb' 0 63, classNormal (n != flip)), none,
        some true⟩ := by
  unfold roundTo
  dsimp only
  exact (if_pos beyond).trans (if_neg (by rw [disabled]; exact Bool.false_ne_true))

theorem roundTo_normal (inRange : ¬fmt.emax < leadExp (roundAt (fpRN w) n m e (fmt.fullUnit m e)).q (fmt.fullUnit m e))
    (normal : ¬leadExp m e < fmt.emin) : roundTo fmt w flip (.num n m e) =
      let r := roundAt (fpRN w) n m e (fmt.fullUnit m e)
      ⟨if r.inexact then fpXX else 0, some (encodeDouble (n != flip) r.q (fmt.fullUnit m e), classNormal (n != flip)),
        some r.increased, some r.inexact⟩ := by
  unfold roundTo
  dsimp only
  exact (if_neg inRange).trans (if_neg normal)

theorem roundTo_tiny (disabled : beBit w 26 = false) (ieee : fpNI w = false)
    (inRange : ¬fmt.emax < leadExp (roundAt (fpRN w) n m e (fmt.fullUnit m e)).q (fmt.fullUnit m e))
    (tiny : leadExp m e < fmt.emin) : roundTo fmt w flip (.num n m e) =
      let r := roundAt (fpRN w) n m e fmt.leastUnit
      ⟨if r.inexact then fpUX ||| fpXX else 0, some (if r.q = 0 then encodeDouble (n != flip) 0 0 else
        encodeDouble (n != flip) r.q fmt.leastUnit, if r.q = 0 then classZero (n != flip) else
        if r.q < 2 ^ (fmt.prec - 1) then classDenormal (n != flip) else classNormal (n != flip)),
        some r.increased, some r.inexact⟩ := by
  unfold roundTo
  dsimp only
  refine ((if_neg inRange).trans (if_pos tiny)).trans ((if_neg (by rw [disabled]; exact Bool.false_ne_true)).trans ?_)
  show (if (roundAt (fpRN w) n m e fmt.leastUnit).q = 0 then _ else _) = _
  by_cases zero : (roundAt (fpRN w) n m e fmt.leastUnit).q = 0
  · rw [if_pos zero, if_pos zero, if_pos zero]
    rfl
  rw [if_neg zero, if_neg zero, if_neg zero]
  by_cases short : (roundAt (fpRN w) n m e fmt.leastUnit).q < 2 ^ (fmt.prec - 1)
  · rw [if_pos short]
    exact (if_pos short).trans (if_neg (by rw [ieee]; exact Bool.false_ne_true))
  · rw [if_neg short]
    exact if_neg short

end

end Sys2Proof.Machine
end

section
/-! SUPPORT. Proofs/FloatArithmetic.lean: the arithmetic operations deliver the exact value rounded once (O43). -/

namespace Sys2Proof.Machine

/-! ### Bounds that rounding keeps -/

theorem Rounded.Of.le_q {r : Rounded} {rn : Rounding} {neg : Bool} {s : Rat} (h : r.Of rn neg s) {N : Nat}
    (bound : (N : Rat) ≤ s) : N ≤ r.q := by
  have : (N : Rat) < (r.q + 1 : Nat) := by
    rw [Nat.cast_add, Nat.cast_one]
    exact bound.trans_lt h.lower
  exact Nat.lt_succ_iff.1 (Nat.cast_lt.1 this)

theorem Rounded.Of.q_le {r : Rounded} {rn : Rounding} {neg : Bool} {s : Rat} (h : r.Of rn neg s) {N : Nat}
    (bound : s ≤ N) : r.q ≤ N := by
  have : (r.q : Rat) < (N + 1 : Nat) := by
    rw [Nat.cast_add, Nat.cast_one]
    exact h.upper.trans_le (by linarith)
  exact Nat.lt_succ_iff.1 (Nat.cast_lt.1 this)

theorem two_pow_mul_zpow (k : Nat) (u : Int) : ((2 ^ k : Nat) : Rat) * 2 ^ u = 2 ^ ((k : Int) + u) := by
  rw [Nat.cast_pow, Nat.cast_ofNat, ← zpow_natCast, ← zpow_add₀ (by norm_num)]

/-! ### The binade of a represented magnitude -/

section
variable {m : Nat} {t : Rat}

theorem Represents.log2 (rep : Represents m t) (inexact : t ≠ m) : 54 ≤ Nat.log2 m := by
  obtain rfl | ⟨large, -, -, -⟩ := rep
  · exact absurd rfl inexact
  · exact (Nat.le_log2 (by omega)).2 large

theorem Represents.binade (rep : Represents m t) (pos : 0 < m) (e : Int) :
    (2 : Rat) ^ leadExp m e ≤ t * 2 ^ e ∧ t * 2 ^ e < 2 ^ (leadExp m e + 1) := by
  obtain rfl | ⟨large, odd, below, above⟩ := rep
  · exact ⟨leadExp_le pos e, lt_leadExp m e⟩
  · obtain ⟨L, hL⟩ : ∃ L, Nat.log2 m = L + 1 :=
      ⟨Nat.log2 m - 1, by have := (Nat.le_log2 (show m ≠ 0 by omega)).2 large; omega⟩
    have lower := two_pow_log2_le pos
    have upper := Nat.lt_log2_self (n := m)
    rw [hL, Nat.pow_succ] at lower upper
    have low : ((2 ^ (L + 1) : Nat) : Rat) + 1 ≤ m := by
      have : 2 ^ (L + 1) + 1 ≤ m := by rw [Nat.pow_succ]; omega
      exact_mod_cast this
    have high : (m : Rat) + 1 ≤ (2 ^ (L + 2) : Nat) := by
      have : m + 1 ≤ 2 ^ (L + 2) := by rw [Nat.pow_succ, Nat.pow_succ]; omega
      exact_mod_cast this
    have lead : leadExp m e = ((L + 1 : Nat) : Int) + e := by
      rw [← hL]
      exact Int.add_comm _ _
    have next : leadExp m e + 1 = ((L + 2 : Nat) : Int) + e := by omega
    rw [next, lead, ← two_pow_mul_zpow, ← two_pow_mul_zpow]
    have unit : (0 : Rat) < 2 ^ e := by positivity
    exact ⟨mul_le_mul_of_nonneg_right (by linarith) unit.le, mul_lt_mul_of_pos_right (by linarith) unit⟩

variable {fmt : FpFormat} {w : Word} {flip n : Bool} {e : Int}

theorem FpFormat.Sound.fullUnit_eq (sound : fmt.Sound) (m : Nat) (e : Int) :
    fmt.fullUnit m e = leadExp m e - ((fmt.prec : Int) - 1) := by
  have := sound.prec_pos
  show leadExp m e - ((fmt.prec - 1 : Nat) : Int) = _
  omega

theorem FpFormat.Sound.leastUnit_eq (sound : fmt.Sound) : fmt.leastUnit = fmt.emin - ((fmt.prec : Int) - 1) := by
  have := sound.prec_pos
  show fmt.emin - ((fmt.prec - 1 : Nat) : Int) = _
  omega

/-- A sticky bit lies two bits below the unit of full precision. -/
theorem Represents.coarse (rep : Represents m t) (sound : fmt.Sound) (e : Int) : t = m ∨ e + 2 ≤ fmt.fullUnit m e := by
  by_cases inexact : t = m
  · exact .inl inexact
  · have := rep.log2 inexact
    have := sound.prec_le
    have lead : leadExp m e = e + (Nat.log2 m : Int) := rfl
    rw [sound.fullUnit_eq]
    exact .inr (by omega)

/-- The multiple of the full-precision unit has the bits of the precision. -/
theorem Represents.full (rep : Represents m t) (sound : fmt.Sound) (pos : 0 < m) (e : Int) (rn : Rounding) (n : Bool) :
    let r := roundAt rn n m e (fmt.fullUnit m e)
    r.Of rn n (t * 2 ^ e / 2 ^ fmt.fullUnit m e) ∧ 2 ^ (fmt.prec - 1) ≤ r.q ∧ r.q ≤ 2 ^ fmt.prec := by
  intro r
  have rounded : r.Of rn n _ := roundAt_of rn n rep (rep.coarse sound e)
  obtain ⟨low, high⟩ := rep.binade pos e
  have precision := sound.prec_pos
  have unit : (0 : Rat) < 2 ^ fmt.fullUnit m e := by positivity
  refine ⟨rounded, rounded.le_q ?_, rounded.q_le ?_⟩
  · have exponent : ((fmt.prec - 1 : Nat) : Int) + (leadExp m e - ((fmt.prec : Int) - 1)) = leadExp m e := by omega
    rw [le_div_iff₀ unit, two_pow_mul_zpow, sound.fullUnit_eq, exponent]
    exact low
  · have exponent : (fmt.prec : Int) + (leadExp m e - ((fmt.prec : Int) - 1)) = leadExp m e + 1 := by omega
    rw [div_le_iff₀ unit, two_pow_mul_zpow, sound.fullUnit_eq, exponent]
    exact high.le

/-- A value that is rounded is delivered as the number it represents. -/
theorem roundTo_num_delivers (sound : fmt.Sound) (oe : beBit w 25 = false) (ue : beBit w 26 = false)
    (ieee : fpNI w = false) (pos : 0 < m) (rep : Represents m t) :
    fmt.delivers w flip (signFactor n * (t * 2 ^ e)) (roundTo fmt w flip (.num n m e)) := by
  obtain ⟨low, high⟩ := rep.binade pos e
  have magnitude : 0 < t * 2 ^ e := (show (0 : Rat) < 2 ^ leadExp m e by positivity).trans_le low
  obtain ⟨rounded, least, most⟩ := rep.full sound pos e (fpRN w) n
  have positive : 0 < (roundAt (fpRN w) n m e (fmt.fullUnit m e)).q := (Nat.two_pow_pos _).trans_le least
  have full := sound.fullUnit_eq m e
  have parts := sound
  obtain ⟨precPos, precLe, eminGe, eminLt, emaxLe, -⟩ := parts
  by_cases beyond : fmt.emax < leadExp (roundAt (fpRN w) n m e (fmt.fullUnit m e)).q (fmt.fullUnit m e)
  · have large := (lt_leadExp_iff positive _ _).1 beyond
    have reach : (2 : Rat) ^ (fmt.emax + 1) ≤ 2 ^ ((fmt.prec : Int) + fmt.fullUnit m e) := by
      rw [← two_pow_mul_zpow]
      exact large.trans (mul_le_mul_of_nonneg_right (Nat.cast_le.2 most) (by positivity))
    have exponent := two_zpow_le_iff.1 reach
    have unit : fmt.unitExp (leadExp m e) = fmt.fullUnit m e := by
      rw [FpFormat.unitExp, max_eq_left (by omega), full]
    rw [← unit] at rounded large
    rw [roundTo_overflow oe beyond]
    exact delivers_overflow sound magnitude low high rounded large
  have inRange := not_le.1 (mt (lt_leadExp_iff positive _ _).2 beyond)
  by_cases tiny : leadExp m e < fmt.emin
  · have unit : fmt.unitExp (leadExp m e) = fmt.leastUnit := by
      rw [FpFormat.unitExp, max_eq_right tiny.le, sound.leastUnit_eq]
    have leastEq := sound.leastUnit_eq
    have coarse : t = m ∨ e + 2 ≤ fmt.leastUnit := (rep.coarse sound e).imp_right fun h => by omega
    have denormalized := roundAt_of (fpRN w) n (e := e) rep coarse
    rw [roundTo_tiny ue ieee beyond tiny]
    dsimp only
    generalize roundAt (fpRN w) n m e fmt.leastUnit = r at denormalized
    have smallest : ((2 ^ (fmt.prec - 1) : Nat) : Rat) * 2 ^ fmt.leastUnit = 2 ^ fmt.emin := by
      rw [two_pow_mul_zpow]
      congr 1
      omega
    have unitPos : (0 : Rat) < 2 ^ fmt.leastUnit := by positivity
    have short : r.q ≤ 2 ^ (fmt.prec - 1) := by
      refine denormalized.q_le ?_
      rw [div_le_iff₀ unitPos, smallest]
      exact high.le.trans (two_zpow_le_iff.2 (by omega))
    have below : (r.q : Rat) * 2 ^ fmt.leastUnit ≤ 2 ^ fmt.emin := by
      rw [← smallest]
      exact mul_le_mul_of_nonneg_right (Nat.cast_le.2 short) unitPos.le
    have denormal : (r.q : Rat) * 2 ^ fmt.leastUnit < 2 ^ fmt.emin ↔ r.q < 2 ^ (fmt.prec - 1) := by
      rw [← smallest, mul_lt_mul_iff_left₀ unitPos, Nat.cast_lt]
    rw [← unit] at denormalized below denormal ⊢
    have delivered := delivers_inRange (flip := flip) (d := if r.q = 0 then encodeDouble (n != flip) 0 0 else
      encodeDouble (n != flip) r.q (fmt.unitExp (leadExp m e))) magnitude low high denormalized
      (below.trans_lt (two_zpow_lt_iff.2 (by omega))) ?_ rfl
    · rw [if_pos tiny] at delivered
      convert delivered using 5
      exact if_congr denormal.symm rfl rfl
    · by_cases zero : r.q = 0
      · rw [if_pos zero, unpack_encodeDouble_zero, zero, Nat.cast_zero, zero_mul, mul_zero]
        rfl
      · rw [if_neg zero]
        have bits : 2 ^ (fmt.prec - 1) ≤ 2 ^ 53 := Nat.pow_le_pow_right (by norm_num) (by omega)
        exact encodeDouble_isNumber _ (Nat.pos_of_ne_zero zero) (short.trans bits) (by omega)
          (below.trans_lt (two_zpow_lt_iff.2 (by omega)))
  · have unit : fmt.unitExp (leadExp m e) = fmt.fullUnit m e := by
      rw [FpFormat.unitExp, max_eq_left (by omega), full]
    rw [roundTo_normal beyond tiny]
    dsimp only
    generalize roundAt (fpRN w) n m e (fmt.fullUnit m e) = r at rounded least most positive inRange
    have normal : ¬(r.q : Rat) * 2 ^ fmt.fullUnit m e < 2 ^ fmt.emin := by
      refine not_lt.2 (le_trans ?_ (mul_le_mul_of_nonneg_right (Nat.cast_le.2 least) (by positivity)))
      rw [two_pow_mul_zpow]
      exact two_zpow_le_iff.2 (by omega)
    rw [← unit] at rounded inRange normal ⊢
    have bits : 2 ^ fmt.prec ≤ 2 ^ 53 := Nat.pow_le_pow_right (by norm_num) precLe
    have delivered := delivers_inRange (flip := flip) (d := encodeDouble (n != flip) r.q (fmt.unitExp (leadExp m e)))
      magnitude low high rounded inRange (encodeDouble_isNumber _ positive (most.trans bits) (by omega)
        (inRange.trans_le (two_zpow_le_iff.2 (by omega)))) rfl
    rw [if_neg tiny, if_neg positive.ne', if_neg normal] at delivered
    exact delivered

end

/-! ### Values that stand for a number when they are rounded -/

/-- `v` is a zero, or represents the number `x` up to a sticky bit. -/
def FpVal.Stands (v : FpVal) (x : Rat) : Prop :=
  match v with
  | .zero _ => x = 0
  | .num n m e => 0 < m ∧ ∃ t, Represents m t ∧ x = signFactor n * (t * 2 ^ e)
  | .nan => False
  | .inf _ => False

theorem FpVal.Proper.stands {v : FpVal} {x : Rat} (proper : v.Proper) (h : v.isNumber x) : v.Stands x := by
  cases v with
  | nan => exact h
  | inf n => exact h
  | zero n => exact h
  | num n m e => exact ⟨proper, m, .inl rfl, (FpVal.isNumber_num n m e x).1 h |>.trans (mul_assoc _ _ _)⟩

theorem roundTo_delivers {fmt : FpFormat} {w : Word} (sound : fmt.Sound) (oe : beBit w 25 = false)
    (ue : beBit w 26 = false) (ieee : fpNI w = false) {v : FpVal} {x : Rat} (h : v.Stands x) (flip : Bool) :
    fmt.delivers w flip x (roundTo fmt w flip v) := by
  cases v with
  | nan => exact h.elim
  | inf n => exact h.elim
  | zero n =>
    obtain rfl : x = 0 := h
    exact ⟨fun _ => ⟨_, _, rfl, unpack_encodeDouble_zero _⟩, fun nonzero => absurd rfl nonzero⟩
  | num n m e =>
    obtain ⟨pos, t, rep, rfl⟩ := h
    exact roundTo_num_delivers sound oe ue ieee pos rep

/-! ### The quotient (R436) -/

/-- Twice a quotient with a sticky bit represents twice the exact quotient. -/
theorem represents_quotient {N k : Nat} (pos : 0 < k) (large : 2 ^ 53 * k ≤ N) :
    Represents (2 * (N / k) + (if N % k = 0 then 0 else 1)) (2 * (N / k)) := by
  have kpos : (0 : Rat) < k := Nat.cast_pos.2 pos
  have whole := Nat.div_add_mod N k
  have part := Nat.mod_lt N pos
  have atLeast : 2 ^ 53 ≤ N / k := (Nat.le_div_iff_mul_le pos).2 large
  by_cases divides : N % k = 0
  · have value : ((N / k : Nat) : Rat) = N / k := Nat.cast_div (Nat.dvd_of_mod_eq_zero divides) kpos.ne'
    left
    rw [if_pos divides, Nat.add_zero, Nat.cast_mul, Nat.cast_ofNat, value]
  · right
    have less : ((N / k : Nat) : Rat) < N / k := by
      rw [lt_div_iff₀ kpos]
      have : N / k * k < N := by
        rw [Nat.mul_comm]
        omega
      exact_mod_cast this
    have more : (N : Rat) / k < (N / k : Nat) + 1 := by
      rw [div_lt_iff₀ kpos]
      have : N < (N / k + 1) * k := by
        rw [Nat.add_mul, Nat.mul_comm]
        omega
      exact_mod_cast this
    rw [if_neg divides, Nat.cast_add, Nat.cast_mul, Nat.cast_ofNat, Nat.cast_one]
    refine ⟨by omega, by omega, ?_, ?_⟩ <;> linarith

theorem unpack_num_lt {d : Dword} {n : Bool} {m : Nat} {e : Int} (h : unpack d = .num n m e) : m < 2 ^ 53 := by
  have fraction := dFrac_lt d
  unfold unpack at h
  split at h
  · split at h <;> cases h
  · split at h
    · split at h
      · cases h
      · cases h
        omega
    · cases h
      omega

theorem div_stands {x : FpVal} {b : Dword} {p q : Rat} (proper : x.Proper) (hx : x.isNumber p)
    (hb : (unpack b).isNumber q) (nonzero : q ≠ 0) : (x.div (unpack b)).Stands (p / q) := by
  have properB := unpack_proper b
  cases hy : unpack b with
  | nan => rw [hy] at hb; exact hb.elim
  | inf n => rw [hy] at hb; exact hb.elim
  | zero n => rw [hy] at hb; exact absurd hb nonzero
  | num c k f =>
    have short := unpack_num_lt hy
    rw [hy] at hb properB
    cases x with
    | nan => exact hx.elim
    | inf n => exact hx.elim
    | zero n =>
      obtain rfl : p = 0 := hx
      exact zero_div q
    | num n m e =>
      rw [FpVal.isNumber_num] at hx hb
      have mpos : 0 < m := proper
      have large : 2 ^ 53 * k ≤ m * 2 ^ 128 := by omega
      have rep := represents_quotient properB large
      have quotient : 0 < m * 2 ^ 128 / k := Nat.div_pos (by omega) properB
      refine ⟨by omega, _, rep, ?_⟩
      have kpos : (k : Rat) ≠ 0 := Nat.cast_ne_zero.2 (show 0 < k from properB).ne'
      have exponent : e - f - 129 = e - f + (-129) := rfl
      have sign : signFactor n / signFactor c = signFactor (n != c) := by
        rw [signFactor_bne, div_eq_iff (signFactor_ne_zero c), mul_assoc, signFactor_mul_self, mul_one]
      have scale : (2 : Rat) * (2 ^ 128 * 2 ^ (-129 : Int)) = 1 := by norm_num
      rw [hx, hb, exponent, zpow_add₀ (by norm_num), zpow_sub₀ (by norm_num), ← sign, Nat.cast_mul, Nat.cast_pow,
        Nat.cast_ofNat]
      have := signFactor_ne_zero c
      calc signFactor n * m * 2 ^ e / (signFactor c * k * 2 ^ f)
          = signFactor n / signFactor c * (m / k * (2 ^ e / 2 ^ f)) * 1 := by field_simp
        _ = _ := by
          rw [← scale]
          ring

/-! ### The operations (R430, R434, R436, R441, R450) -/

theorem FpVal.isInf_of_isNumber {v : FpVal} {q : Rat} (h : v.isNumber q) : v.isInf = false := by
  cases v with
  | nan => rfl
  | inf n => exact h.elim
  | zero n => rfl
  | num n m e => rfl

theorem FpVal.isZero_of_isNumber {v : FpVal} {q : Rat} (h : v.isNumber q) (nonzero : q ≠ 0) : v.isZero = false := by
  cases v with
  | nan => rfl
  | inf n => rfl
  | zero n => exact absurd h nonzero
  | num n m e => rfl

/-- Numbers have no NaN: the operation delivers its result. -/
theorem fpSelect_numbers (fmt : FpFormat) (w : Word) {ops : List Dword} (h : ∀ d ∈ ops, isNan d = false) (r : FpOut) :
    fpSelect fmt w ops 0 r = r := by
  have signaling : ops.any isSnan = false := by
    rw [List.any_eq_false]
    intro d hd
    rw [isSnan, h d hd]
    exact Bool.false_ne_true
  have none : ops.find? isNan = none := List.find?_eq_none.2 fun d hd => by
    rw [h d hd]
    exact Bool.false_ne_true
  unfold fpSelect
  rw [signaling, none]
  exact if_pos BitVec.or_zero

section
variable {fmt : FpFormat} {w : Word} {a b c : Dword} {p q r : Rat}

/-- The subtrahend's sign is inverted first. -/
theorem isNumber_minus {v : FpVal} (h : v.isNumber q) (minus : Bool) :
    (if minus then v.neg else v).isNumber (if minus then -q else q) := by
  cases minus
  · exact h
  · exact FpVal.isNumber_neg h

theorem proper_minus {v : FpVal} (h : v.Proper) (minus : Bool) : (if minus then v.neg else v).Proper := by
  cases minus
  · exact h
  · exact h.neg

theorem fpAdd_numbers (ieee : fpNI w = false) (minus : Bool) (ha : (unpack a).isNumber p) (hb : (unpack b).isNumber q) :
    fpAdd fmt w minus a b = roundTo fmt w false
      ((unpack a).add (fpRN w = .down) (if minus then (unpack b).neg else unpack b)) := by
  have numbers : ∀ d ∈ [a, b], isNan d = false := by
    simp [not_isNan_of_isNumber ha, not_isNan_of_isNumber hb]
  unfold fpAdd
  dsimp only
  rw [fpOperand_ieee ieee, fpOperand_ieee ieee, FpVal.isInf_of_isNumber ha, Bool.false_and, Bool.false_and]
  exact fpSelect_numbers fmt w numbers _

theorem fpMul_numbers (ieee : fpNI w = false) (ha : (unpack a).isNumber p) (hc : (unpack c).isNumber r) :
    fpMul fmt w a c = roundTo fmt w false ((unpack a).mul (unpack c)) := by
  have numbers : ∀ d ∈ [a, c], isNan d = false := by
    simp [not_isNan_of_isNumber ha, not_isNan_of_isNumber hc]
  unfold fpMul
  dsimp only
  rw [fpOperand_ieee ieee, fpOperand_ieee ieee, FpVal.isInf_of_isNumber ha, FpVal.isInf_of_isNumber hc, Bool.false_and,
    Bool.and_false]
  exact fpSelect_numbers fmt w numbers _

theorem fpDiv_numbers (ieee : fpNI w = false) (ha : (unpack a).isNumber p) (hb : (unpack b).isNumber q)
    (nonzero : q ≠ 0) : fpDiv fmt w a b = roundTo fmt w false ((unpack a).div (unpack b)) := by
  have numbers : ∀ d ∈ [a, b], isNan d = false := by
    simp [not_isNan_of_isNumber ha, not_isNan_of_isNumber hb]
  unfold fpDiv
  dsimp only
  rw [fpOperand_ieee ieee, fpOperand_ieee ieee, FpVal.isInf_of_isNumber ha, FpVal.isZero_of_isNumber hb nonzero,
    Bool.false_and, Bool.and_false, Bool.and_false]
  exact fpSelect_numbers fmt w numbers _

theorem fpMulAdd_numbers (ieee : fpNI w = false) (minus flip : Bool) (ha : (unpack a).isNumber p)
    (hb : (unpack b).isNumber q) (hc : (unpack c).isNumber r) : fpMulAdd fmt w minus flip a c b = roundTo fmt w flip
      (((unpack a).mul (unpack c)).add (fpRN w = .down) (if minus then (unpack b).neg else unpack b)) := by
  have numbers : ∀ d ∈ [a, b, c], isNan d = false := by
    simp [not_isNan_of_isNumber ha, not_isNan_of_isNumber hb, not_isNan_of_isNumber hc]
  unfold fpMulAdd
  dsimp only
  rw [fpOperand_ieee ieee, fpOperand_ieee ieee, fpOperand_ieee ieee, FpVal.isInf_of_isNumber ha,
    FpVal.isInf_of_isNumber hc, FpVal.isInf_of_isNumber (FpVal.mul_isNumber ha hc), Bool.false_and, Bool.and_false,
    Bool.false_and, Bool.false_and]
  exact fpSelect_numbers fmt w numbers _

theorem fpRoundSingle_numbers (ieee : fpNI w = false) (hb : (unpack b).isNumber q) :
    fpRoundSingle w b = roundTo fmtSingle w false (unpack b) := by
  have numbers : ∀ d ∈ [b], isNan d = false := by
    simp [not_isNan_of_isNumber hb]
  unfold fpRoundSingle
  rw [fpOperand_ieee ieee]
  exact fpSelect_numbers fmtSingle w numbers _

end

theorem ofInt_eq_zero {x e : Int} {z : Bool} (h : (ofInt x e z).isNumber 0) : ofInt x e z = .zero z := by
  unfold ofInt at h ⊢
  by_cases zero : x = 0
  · exact if_pos zero
  · rw [if_neg zero, FpVal.isNumber_num, mul_assoc] at h
    have magnitude : (0 : Rat) < x.natAbs * 2 ^ e := mul_pos (Nat.cast_pos.2 (Int.natAbs_pos.2 zero)) (by positivity)
    exact absurd h.symm (mul_ne_zero (signFactor_ne_zero _) magnitude.ne')

/-- Numbers that are opposite add up to the zero of the rounding mode (R430). -/
theorem add_opposite {x y : FpVal} {p q : Rat} (down : Bool) (hx : x.isNumber p) (hy : y.isNumber q) (nonzero : p ≠ 0)
    (opposite : p + q = 0) : x.add down y = .zero down := by
  have sum := FpVal.add_isNumber down hx hy
  rw [opposite] at sum
  cases x with
  | nan => exact hx.elim
  | inf n => exact hx.elim
  | zero n => exact absurd hx nonzero
  | num n m e =>
    cases y with
    | nan => exact hy.elim
    | inf c => exact hy.elim
    | zero c =>
      obtain rfl : q = 0 := hy
      exact absurd (by simpa using opposite) nonzero
    | num c k f =>
      exact ofInt_eq_zero sum

/-- Settles O43: the operations are exact, or sticky for a quotient, and `roundTo` rounds once. -/
theorem arithmeticRoundsExactValue : Obligations.ArithmeticRoundsExactValue := by
  intro fmt w a b c p q r format oe ue ieee ha hb hc
  have sound : fmt.Sound := by
    obtain rfl | rfl := format
    · exact fmtDouble_sound
    · exact fmtSingle_sound
  have properA := unpack_proper a
  have properB := unpack_proper b
  have properC := unpack_proper c
  have rounds {v : FpVal} {x : Rat} (proper : v.Proper) (h : v.isNumber x) (flip : Bool) :=
    roundTo_delivers sound oe ue ieee (proper.stands h) flip
  have sum (minus : Bool) {v : FpVal} {x : Rat} (proper : v.Proper) (h : v.isNumber x) (flip : Bool) :=
    rounds (FpVal.add_proper (fpRN w = .down) proper (proper_minus properB minus))
      (FpVal.add_isNumber (fpRN w = .down) h (isNumber_minus hb minus)) flip
  refine ⟨?_, ?_, ?_, fun nonzero => ?_, fun flip => ⟨?_, ?_⟩, ?_, fun nonzero opposite => ?_⟩
  · rw [fpAdd_numbers ieee false ha hb]
    exact sum false properA ha false
  · rw [fpAdd_numbers ieee true ha hb, sub_eq_add_neg]
    exact sum true properA ha false
  · rw [fpMul_numbers ieee ha hc]
    exact rounds (FpVal.mul_proper properA properC) (FpVal.mul_isNumber ha hc) false
  · rw [fpDiv_numbers ieee ha hb nonzero]
    exact roundTo_delivers sound oe ue ieee (div_stands properA ha hb nonzero) false
  · rw [fpMulAdd_numbers ieee false flip ha hb hc]
    exact sum false (FpVal.mul_proper properA properC) (FpVal.mul_isNumber ha hc) flip
  · rw [fpMulAdd_numbers ieee true flip ha hb hc, sub_eq_add_neg]
    exact sum true (FpVal.mul_proper properA properC) (FpVal.mul_isNumber ha hc) flip
  · rw [fpRoundSingle_numbers ieee hb]
    exact roundTo_delivers fmtSingle_sound oe ue ieee (properB.stands hb) false
  · rw [fpAdd_numbers ieee false ha hb]
    refine (congrArg (fun v => (roundTo fmt w false v).write) (add_opposite _ ha hb nonzero opposite)).trans ?_
    by_cases down : fpRN w = .down
    · rw [decide_eq_true down, if_pos down, if_pos down]
      show some (encodeDouble true 0 0, classZero true) = _
      decide +kernel
    · rw [decide_eq_false down, if_neg down, if_neg down]
      show some (encodeDouble false 0 0, classZero false) = _
      decide +kernel

end Sys2Proof.Machine
end

section
/-! SUPPORT. Proofs/FloatEstimates.lean: the estimates of `fres` and `frsqrte` are within their bounds (O44). -/

namespace Sys2Proof.Machine

/-! ### Rounding a number of the normalized range -/

section
variable {fmt : FpFormat} {w : Word}

/-- A number of the normalized range is delivered less than one unit in the last place away, whatever exceptions are
enabled. -/
theorem roundTo_close (sound : fmt.Sound) {v : FpVal} {x : Rat} (h : v.Stands x) (low : (2 : Rat) ^ fmt.emin ≤ |x|)
    (high : |x| ≤ (2 ^ fmt.prec - 1) * 2 ^ (fmt.emax - ((fmt.prec : Int) - 1))) :
    ∃ d c y, (roundTo fmt w false v).write = some (d, c) ∧ (unpack d).isNumber y ∧
      |y - x| ≤ |x| / 2 ^ (fmt.prec - 1) := by
  have positive : (0 : Rat) < |x| := (show (0 : Rat) < 2 ^ fmt.emin by positivity).trans_le low
  cases v with
  | nan => exact h.elim
  | inf n => exact h.elim
  | zero n =>
    obtain rfl : x = 0 := h
    exact absurd abs_zero positive.ne'
  | num n m e =>
    obtain ⟨pos, t, rep, rfl⟩ := h
    obtain ⟨lower, upper⟩ := rep.binade pos e
    have magnitude : 0 < t * 2 ^ e := (show (0 : Rat) < 2 ^ leadExp m e by positivity).trans_le lower
    rw [abs_signed n magnitude.le] at low high ⊢
    obtain ⟨rounded, least, most⟩ := rep.full sound pos e (fpRN w) n
    have full := sound.fullUnit_eq m e
    have parts := sound
    obtain ⟨precPos, precLe, eminGe, eminLt, emaxLe, -⟩ := parts
    have unit : (0 : Rat) < 2 ^ fmt.fullUnit m e := by positivity
    have nonzero : 0 < (roundAt (fpRN w) n m e (fmt.fullUnit m e)).q := (Nat.two_pow_pos _).trans_le least
    have normal : ¬leadExp m e < fmt.emin := by
      have := two_zpow_lt_iff.1 (low.trans_lt upper)
      omega
    have top : ((2 ^ fmt.prec : Nat) : Rat) * 2 ^ (fmt.emax - ((fmt.prec : Int) - 1)) = 2 ^ (fmt.emax + 1) := by
      rw [two_pow_mul_zpow]
      congr 1
      omega
    have pred : ((2 ^ fmt.prec - 1 : Nat) : Rat) = 2 ^ fmt.prec - 1 := by
      rw [Nat.cast_sub Nat.one_le_two_pow, Nat.cast_pow, Nat.cast_ofNat, Nat.cast_one]
    have inRange : ((roundAt (fpRN w) n m e (fmt.fullUnit m e)).q : Rat) * 2 ^ fmt.fullUnit m e <
        2 ^ (fmt.emax + 1) := by
      by_cases last : leadExp m e < fmt.emax
      · calc ((roundAt (fpRN w) n m e (fmt.fullUnit m e)).q : Rat) * 2 ^ fmt.fullUnit m e
            ≤ (2 ^ fmt.prec : Nat) * 2 ^ fmt.fullUnit m e := mul_le_mul_of_nonneg_right (Nat.cast_le.2 most) unit.le
          _ = 2 ^ ((fmt.prec : Int) + fmt.fullUnit m e) := two_pow_mul_zpow _ _
          _ < 2 ^ (fmt.emax + 1) := two_zpow_lt_iff.2 (by omega)
      · have below : (2 : Rat) ^ leadExp m e < 2 ^ (fmt.emax + 1) := by
          refine lower.trans_lt (high.trans_lt ?_)
          rw [← top, ← pred]
          exact mul_lt_mul_of_pos_right (Nat.cast_lt.2 (Nat.sub_lt (Nat.two_pow_pos _) one_pos)) (by positivity)
        have := two_zpow_lt_iff.1 below
        have same : fmt.fullUnit m e = fmt.emax - ((fmt.prec : Int) - 1) := by omega
        rw [same] at rounded ⊢
        have short := rounded.q_le (N := 2 ^ fmt.prec - 1) (by
          rw [div_le_iff₀ (by positivity), pred]
          exact high)
        rw [← top]
        exact mul_lt_mul_of_pos_right (Nat.cast_lt.2 (short.trans_lt (Nat.sub_lt (Nat.two_pow_pos _) one_pos)))
          (by positivity)
    have bits : 2 ^ fmt.prec ≤ 2 ^ 53 := Nat.pow_le_pow_right (by norm_num) precLe
    rw [roundTo_normal (fun beyond => ((lt_leadExp_iff nonzero _ _).1 beyond).not_gt inRange) normal]
    refine ⟨_, _, _, rfl, encodeDouble_isNumber _ nonzero (most.trans bits) (by omega)
      (inRange.trans_le (two_zpow_le_iff.2 (by omega))), ?_⟩
    rw [Bool.bne_false, ← mul_sub, abs_mul, signFactor_abs, one_mul]
    obtain ⟨-, -, -, above, below⟩ := rounded
    have step : (2 : Rat) ^ fmt.fullUnit m e ≤ t * 2 ^ e / 2 ^ (fmt.prec - 1) := by
      have scaled := two_pow_mul_zpow (fmt.prec - 1) (fmt.fullUnit m e)
      rw [le_div_iff₀ (by positivity), mul_comm]
      rw [Nat.cast_pow, Nat.cast_ofNat] at scaled
      rw [scaled]
      refine le_trans (two_zpow_le_iff.2 ?_) lower
      omega
    rw [div_lt_iff₀ unit] at above
    rw [← sub_lt_iff_lt_add, lt_div_iff₀ unit] at below
    refine le_trans (abs_le.2 ⟨?_, ?_⟩) step <;> linarith

end

/-! ### fres (R438) -/

theorem two_zpow_toNat_neg {t : Int} (h : t ≤ 0) : ((2 ^ (-t).toNat : Nat) : Rat) * 2 ^ t = 1 := by
  have exponent : ((-t).toNat : Int) + t = 0 := by omega
  rw [two_pow_mul_zpow, exponent, zpow_zero]

theorem within_iff (a b d : Nat) : within a b d = true ↔ a ≤ b + d ∧ b ≤ a + d := by
  simp [within]

/-- A legal estimate of a reciprocal is within 1/256 of it. -/
theorem fresLegal_bound {n : Bool} {m : Nat} {e : Int} {d : Dword} (legal : fresLegal n m e d = true) :
    ∃ y, (unpack d).isNumber y ∧ |y * (signFactor n * m * 2 ^ e) - 1| ≤ 1 / 256 := by
  unfold fresLegal at legal
  cases hd : unpack d with
  | nan => rw [hd] at legal; cases legal
  | inf k => rw [hd] at legal; cases legal
  | zero k => rw [hd] at legal; cases legal
  | num k q f =>
    rw [hd] at legal
    simp only [Bool.and_eq_true, decide_eq_true_iff, beq_iff_eq, within_iff] at legal
    obtain ⟨⟨⟨⟨rfl, -⟩, -⟩, scale⟩, above, below⟩ := legal
    refine ⟨_, rfl, ?_⟩
    have unit := two_zpow_toNat_neg scale
    have T_pos : (0 : Rat) < (2 ^ (-(e + f)).toNat : Nat) := Nat.cast_pos.2 (Nat.two_pow_pos _)
    generalize (2 ^ (-(e + f)).toNat : Nat) = T at unit above below T_pos
    have product : (signFactor k * q * 2 ^ f) * (signFactor k * m * 2 ^ e) = m * q / T := by
      rw [eq_div_iff T_pos.ne', ← mul_one ((m : Rat) * q), ← unit, zpow_add₀ (by norm_num)]
      calc signFactor k * q * 2 ^ f * (signFactor k * m * 2 ^ e) * T
          = (signFactor k * signFactor k) * (m * q * (T * (2 ^ e * 2 ^ f))) := by ring
        _ = _ := by rw [signFactor_mul_self, one_mul]
    have high : 256 * ((m : Rat) * q) ≤ 256 * T + T := by exact_mod_cast above
    have low : 256 * (T : Rat) ≤ 256 * (m * q) + T := by exact_mod_cast below
    show |(signFactor k * q * 2 ^ f) * (signFactor k * m * 2 ^ e) - 1| ≤ _
    have least : 255 / 256 ≤ (m : Rat) * q / T := by
      rw [le_div_iff₀ T_pos]
      linarith
    have most : (m : Rat) * q / T ≤ 257 / 256 := by
      rw [div_le_iff₀ T_pos]
      linarith
    rw [product, abs_le]
    constructor <;> linarith

/-- The operand of an estimate that is no zero. -/
theorem unpack_num_of_isNumber {b : Dword} {x : Rat} (hb : (unpack b).isNumber x) (nonzero : x ≠ 0) :
    ∃ n m e, unpack b = .num n m e ∧ 0 < m ∧ x = signFactor n * m * 2 ^ e := by
  have proper := unpack_proper b
  cases h : unpack b with
  | nan => rw [h] at hb; exact hb.elim
  | inf n => rw [h] at hb; exact hb.elim
  | zero n => rw [h] at hb; exact absurd hb nonzero
  | num n m e =>
    rw [h] at hb proper
    exact ⟨n, m, e, rfl, proper, hb⟩

/-- The correctly rounded reciprocal is far closer than the estimate must be. -/
theorem reciprocal_bound {w : Word} {b : Dword} {x : Rat} (hb : (unpack b).isNumber x) (nonzero : x ≠ 0)
    (low : (2 : Rat) ^ (-126 : Int) ≤ |1 / x|)
    (high : |1 / x| ≤ (2 - (2 : Rat) ^ (-23 : Int)) * (2 : Rat) ^ (127 : Int)) :
    ∃ d c y, (roundTo fmtSingle w false ((FpVal.num false 1 0).div (unpack b))).write = some (d, c) ∧
      (unpack d).isNumber y ∧ |y * x - 1| ≤ 1 / 256 := by
  have one : (FpVal.num false 1 0).isNumber 1 := by
    rw [FpVal.isNumber_num, signFactor_false]
    norm_num
  have largest : ((2 : Rat) ^ fmtSingle.prec - 1) * 2 ^ (fmtSingle.emax - ((fmtSingle.prec : Int) - 1)) =
      (2 - (2 : Rat) ^ (-23 : Int)) * (2 : Rat) ^ (127 : Int) := by
    show ((2 : Rat) ^ 24 - 1) * 2 ^ (104 : Int) = _
    norm_num
  have stands := div_stands (x := .num false 1 0) Nat.one_pos one hb nonzero
  obtain ⟨d, c, y, write, number, close⟩ := roundTo_close (w := w) fmtSingle_sound stands low
    (by rw [largest]; exact high)
  refine ⟨d, c, y, write, number, ?_⟩
  have absolute : 0 < |x| := abs_pos.2 nonzero
  have factor : y * x - 1 = (y - 1 / x) * x := by
    rw [sub_mul, one_div_mul_cancel nonzero]
  have reciprocal : |1 / x| * |x| = 1 := by
    rw [← abs_mul, one_div_mul_cancel nonzero, abs_one]
  calc |y * x - 1| = |y - 1 / x| * |x| := by rw [factor, abs_mul]
    _ ≤ |1 / x| / 2 ^ (fmtSingle.prec - 1) * |x| := mul_le_mul_of_nonneg_right close absolute.le
    _ = 1 / 2 ^ 23 := by rw [div_mul_eq_mul_div, reciprocal]; rfl
    _ ≤ 1 / 256 := by norm_num

theorem fpRes_bound {w : Word} {b : Dword} {x : Rat} (ieee : fpNI w = false) (hb : (unpack b).isNumber x)
    (nonzero : x ≠ 0) (low : (2 : Rat) ^ (-126 : Int) ≤ |1 / x|)
    (high : |1 / x| ≤ (2 - (2 : Rat) ^ (-23 : Int)) * (2 : Rat) ^ (127 : Int)) :
    ∃ d c y, (fpRes w b).write = some (d, c) ∧ (unpack d).isNumber y ∧ |y * x - 1| ≤ 1 / 256 := by
  have numbers : ∀ d ∈ [b], isNan d = false := by
    simp [not_isNan_of_isNumber hb]
  have rounded := reciprocal_bound (w := w) hb nonzero low high
  obtain ⟨n, m, e, num, pos, value⟩ := unpack_num_of_isNumber hb nonzero
  unfold fpRes estimateOut
  dsimp only
  rw [fpOperand_ieee ieee, fpSelect_numbers fmtSingle w numbers]
  rw [num] at rounded ⊢
  dsimp only
  by_cases legal : (roundTo fmtSingle w false ((FpVal.num false 1 0).div (.num n m e))).exc &&& (fpOX ||| fpUX) = 0 ∧
      fresLegal n m e (Config.fresEstimate b) = true
  · obtain ⟨y, number, bound⟩ := fresLegal_bound legal.2
    rw [if_pos legal, value]
    exact ⟨_, _, y, rfl, number, bound⟩
  · rw [if_neg legal]
    exact rounded

/-! ### frsqrte (R439) -/

/-- The bits found so far are the integer square root's. -/
theorem isqrtFrom_spec (N k r : Nat) (low : r * r ≤ N) (high : N < (r + 2 ^ k) * (r + 2 ^ k)) :
    isqrtFrom N k r * isqrtFrom N k r ≤ N ∧ N < (isqrtFrom N k r + 1) * (isqrtFrom N k r + 1) := by
  induction k generalizing r with
  | zero => exact ⟨low, high⟩
  | succ k ih =>
    unfold isqrtFrom
    by_cases fits : (r + 2 ^ k) * (r + 2 ^ k) ≤ N
    · rw [if_pos fits]
      refine ih _ fits ?_
      rwa [Nat.add_assoc, ← Nat.two_mul, ← Nat.pow_succ']
    · rw [if_neg fits]
      exact ih r low (Nat.lt_of_not_le fits)

/-- The square root of a quotient of `2^256`, by its neighbours. -/
theorem isqrt_quotient {k : Nat} (pos : 0 < k) :
    let q := isqrtFrom (2 ^ 256 / k) 129 0
    q * q * k ≤ 2 ^ 256 ∧ 2 ^ 256 < (q + 1) * (q + 1) * k := by
  intro q
  have bound : 2 ^ 256 / k < (0 + 2 ^ 129) * (0 + 2 ^ 129) := (Nat.div_le_self _ _).trans_lt (by norm_num)
  obtain ⟨low, high⟩ := isqrtFrom_spec (2 ^ 256 / k) 129 0 (Nat.zero_le _) bound
  exact ⟨(Nat.le_div_iff_mul_le pos).1 low, (Nat.div_lt_iff_lt_mul pos).1 high⟩

/-- The significand of an inverse square root with its sticky bit, against the exact square. -/
theorem sticky_root_bound {k q M : Nat} (small : k ≤ 2 ^ 54) (low : q * q * k ≤ 2 ^ 256)
    (high : 2 ^ 256 < (q + 1) * (q + 1) * k) (least : 2 * q ≤ M) (most : M ≤ 2 * q + 1) :
    (63 / 64) ^ 2 ≤ (M : Rat) ^ 2 * k / 2 ^ 258 ∧ (M : Rat) ^ 2 * k / 2 ^ 258 ≤ (65 / 64) ^ 2 := by
  have large : 63 ≤ q := by
    by_contra less
    have : (q + 1) * (q + 1) * k ≤ 63 * 63 * 2 ^ 54 :=
      Nat.mul_le_mul (Nat.mul_le_mul (by omega) (by omega)) small
    have : (63 * 63 * 2 ^ 54 : Nat) < 2 ^ 256 := by norm_num
    omega
  have largeR : (63 : Rat) ≤ q := by exact_mod_cast large
  have lowR : (q : Rat) * q * k ≤ 2 ^ 256 := by exact_mod_cast low
  have highR : (2 : Rat) ^ 256 < (q + 1) * (q + 1) * k := by exact_mod_cast high
  have leastR : (2 : Rat) * q ≤ M := by exact_mod_cast least
  have mostR : (M : Rat) ≤ 2 * q + 1 := by exact_mod_cast most
  have nonneg : (0 : Rat) ≤ k := Nat.cast_nonneg k
  have scale : (2 : Rat) ^ 258 = 2 ^ 2 * 2 ^ 256 := pow_add 2 2 256
  constructor
  · rw [le_div_iff₀ (by positivity)]
    have root : (63 / 64) * ((q : Rat) + 1) ≤ q := by linarith
    calc (63 / 64 : Rat) ^ 2 * 2 ^ 258 = (63 / 64) ^ 2 * 4 * 2 ^ 256 := by rw [scale]; ring
      _ ≤ (63 / 64) ^ 2 * 4 * (((q : Rat) + 1) * (q + 1) * k) := mul_le_mul_of_nonneg_left highR.le (by norm_num)
      _ = (2 * ((63 / 64) * ((q : Rat) + 1))) ^ 2 * k := by ring
      _ ≤ (M : Rat) ^ 2 * k :=
        mul_le_mul_of_nonneg_right (pow_le_pow_left₀ (by positivity) (by linarith) 2) nonneg
  · rw [div_le_iff₀ (by positivity)]
    calc (M : Rat) ^ 2 * k ≤ ((65 / 64) * (2 * q)) ^ 2 * k :=
          mul_le_mul_of_nonneg_right (pow_le_pow_left₀ (by positivity) (by linarith) 2) nonneg
      _ = (65 / 64) ^ 2 * 4 * (q * q * k) := by ring
      _ ≤ (65 / 64) ^ 2 * 4 * 2 ^ 256 := mul_le_mul_of_nonneg_left lowR (by norm_num)
      _ = (65 / 64) ^ 2 * 2 ^ 258 := by rw [scale]; ring

/-- The exact value of `invSqrt` before rounding. -/
theorem invSqrt_bound {m : Nat} (pos : 0 < m) (short : m < 2 ^ 53) (e : Int) :
    ∃ X : Rat, 0 < X ∧ (invSqrt m e).Stands X ∧
      (63 / 64) ^ 2 ≤ X ^ 2 * (m * 2 ^ e) ∧ X ^ 2 * (m * 2 ^ e) ≤ (65 / 64) ^ 2 := by
  obtain ⟨k, h, hk, value, small, form⟩ :
      ∃ (k : Nat) (h : Int), 0 < k ∧ (k : Rat) * 2 ^ (2 * h) = m * 2 ^ e ∧ k ≤ 2 ^ 54 ∧
      invSqrt m e = .num false (2 * isqrtFrom (2 ^ 256 / k) 129 0 +
        (if isqrtFrom (2 ^ 256 / k) 129 0 * isqrtFrom (2 ^ 256 / k) 129 0 * k = 2 ^ 256 then 0 else 1)) (-h - 129) := by
    unfold invSqrt
    dsimp only
    by_cases odd : e % 2 = 0
    · have even : (e % 2 != 0) = false := by simpa using odd
      rw [even]
      refine ⟨m, e / 2, pos, ?_, by omega, rfl⟩
      rw [show 2 * (e / 2) = e by omega]
    · have odd1 : (e % 2 != 0) = true := by simpa using odd
      rw [odd1]
      refine ⟨2 * m, (e - 1) / 2, by omega, ?_, by omega, rfl⟩
      rw [show 2 * ((e - 1) / 2) = e - 1 by omega, zpow_sub₀ (by norm_num), Nat.cast_mul, Nat.cast_ofNat, zpow_one]
      ring
  obtain ⟨low, high⟩ := isqrt_quotient hk
  generalize isqrtFrom (2 ^ 256 / k) 129 0 = q at low high form
  obtain ⟨M, hM⟩ : ∃ M, M = 2 * q + (if q * q * k = 2 ^ 256 then 0 else 1) := ⟨_, rfl⟩
  have least : 2 * q ≤ M := hM ▸ Nat.le_add_right _ _
  have most : M ≤ 2 * q + 1 := by
    rw [hM]
    split <;> omega
  obtain ⟨lower, upper⟩ := sticky_root_bound small low high least most
  have Mpos : 0 < M := by
    by_contra none
    have zero : M = 0 := by omega
    rw [zero] at lower
    norm_num at lower
  have square : ((M : Rat) * 2 ^ (-h - 129)) ^ 2 * (m * 2 ^ e) = (M : Rat) ^ 2 * k / 2 ^ 258 := by
    have powers : ((2 : Rat) ^ (-h - 129)) ^ 2 * 2 ^ (2 * h) = 1 / 2 ^ 258 := by
      rw [← zpow_natCast ((2 : Rat) ^ (-h - 129)), ← zpow_mul, ← zpow_add₀ (by norm_num),
        show (-h - 129) * ((2 : Nat) : Int) + 2 * h = -((258 : Nat) : Int) by omega, zpow_neg, zpow_natCast, one_div]
    calc ((M : Rat) * 2 ^ (-h - 129)) ^ 2 * (m * 2 ^ e)
        = (M : Rat) ^ 2 * k * (((2 : Rat) ^ (-h - 129)) ^ 2 * 2 ^ (2 * h)) := by rw [← value]; ring
      _ = _ := by rw [powers, mul_one_div]
  refine ⟨M * 2 ^ (-h - 129), mul_pos (Nat.cast_pos.2 Mpos) (by positivity), ?_, ?_, ?_⟩
  · rw [form, ← hM]
    exact ⟨Mpos, M, .inl rfl, by rw [signFactor_false, one_mul]⟩
  · rw [square]
    exact lower
  · rw [square]
    exact upper

/-- A legal estimate of an inverse square root is positive and within 1/32 of it. -/
theorem frsqrteLegal_bound {m : Nat} {e : Int} {d : Dword} (legal : frsqrteLegal m e d = true) :
    ∃ y, (unpack d).isNumber y ∧ 0 < y ∧ (31 / 32) ^ 2 ≤ y ^ 2 * (m * 2 ^ e) ∧ y ^ 2 * (m * 2 ^ e) ≤ (33 / 32) ^ 2 := by
  have proper := unpack_proper d
  unfold frsqrteLegal at legal
  cases hd : unpack d with
  | nan => rw [hd] at legal; cases legal
  | inf k => rw [hd] at legal; cases legal
  | zero k => rw [hd] at legal; cases legal
  | num k q f =>
    rw [hd] at legal proper
    simp only [Bool.and_eq_true, decide_eq_true_iff, Bool.not_eq_true'] at legal
    obtain ⟨⟨⟨⟨rfl, -⟩, scale⟩, below⟩, above⟩ := legal
    have unit := two_zpow_toNat_neg scale
    have T_pos : (0 : Rat) < (2 ^ (-(e + 2 * f)).toNat : Nat) := Nat.cast_pos.2 (Nat.two_pow_pos _)
    generalize (2 ^ (-(e + 2 * f)).toNat : Nat) = T at unit above below T_pos
    have product : ((q : Rat) * 2 ^ f) ^ 2 * (m * 2 ^ e) = m * q * q / T := by
      rw [eq_div_iff T_pos.ne', ← mul_one ((m : Rat) * q * q), ← unit, zpow_add₀ (by norm_num),
        mul_comm 2 f, zpow_mul, zpow_ofNat]
      ring
    have low : 961 * (T : Rat) ≤ 1024 * (m * q * q) := by exact_mod_cast below
    have high : 1024 * ((m : Rat) * q * q) ≤ 1089 * T := by exact_mod_cast above
    refine ⟨q * 2 ^ f, ?_, mul_pos (Nat.cast_pos.2 proper) (by positivity), ?_, ?_⟩
    · rw [FpVal.isNumber_num, signFactor_false, one_mul]
    · rw [product, le_div_iff₀ T_pos]
      linarith
    · rw [product, div_le_iff₀ T_pos]
      linarith

theorem unpack_num_range {d : Dword} {n : Bool} {m : Nat} {e : Int} (h : unpack d = .num n m e) :
    -1074 ≤ e ∧ e ≤ 971 := by
  have exponent := dExp_lt d
  unfold unpack at h
  split at h
  · split at h <;> cases h
  · split at h
    · split at h
      · cases h
      · cases h
        omega
    · cases h
      show -1074 ≤ (dExp d : Int) - 1075 ∧ (dExp d : Int) - 1075 ≤ 971
      omega

/-- The inverse square root of a double is far inside the normalized range. -/
theorem inverse_root_range {X x : Rat} (pos : 0 < X) (least : (2 : Rat) ^ (-1074 : Int) ≤ x)
    (most : x ≤ 2 ^ (1024 : Int)) (lower : (63 / 64) ^ 2 ≤ X ^ 2 * x) (upper : X ^ 2 * x ≤ (65 / 64) ^ 2) :
    (2 : Rat) ^ (-1022 : Int) ≤ X ∧ X ≤ 2 ^ (1000 : Int) := by
  have xpos : 0 < x := (show (0 : Rat) < 2 ^ (-1074 : Int) by positivity).trans_le least
  have square (k : Int) : ((2 : Rat) ^ k) ^ 2 = 2 ^ (k * 2) := by
    rw [zpow_mul, zpow_ofNat]
  constructor
  · by_contra less
    have small : X ^ 2 * x ≤ ((2 : Rat) ^ (-1022 : Int)) ^ 2 * 2 ^ (1024 : Int) :=
      mul_le_mul (pow_le_pow_left₀ pos.le (not_le.1 less).le 2) most xpos.le (by positivity)
    rw [square, ← zpow_add₀ (by norm_num)] at small
    have tiny : (2 : Rat) ^ ((-1022 : Int) * 2 + 1024) ≤ 2 ^ (-1 : Int) := two_zpow_le_iff.2 (by norm_num)
    have gap : (2 : Rat) ^ (-1 : Int) < (63 / 64) ^ 2 := by norm_num
    exact gap.not_ge (lower.trans (small.trans tiny))
  · by_contra more
    have large : ((2 : Rat) ^ (1000 : Int)) ^ 2 * 2 ^ (-1074 : Int) ≤ X ^ 2 * x :=
      mul_le_mul (pow_le_pow_left₀ (by positivity) (not_le.1 more).le 2) least (by positivity) (by positivity)
    rw [square, ← zpow_add₀ (by norm_num)] at large
    have huge : (2 : Rat) ^ (1 : Int) ≤ 2 ^ ((1000 : Int) * 2 + -1074) := two_zpow_le_iff.2 (by norm_num)
    have gap : (65 / 64 : Rat) ^ 2 < 2 ^ (1 : Int) := by norm_num
    exact gap.not_ge (huge.trans (large.trans upper))

/-- The correctly rounded inverse square root is far closer than the estimate must be. -/
theorem invSqrt_rounded_bound {w : Word} {b : Dword} {n : Bool} {m : Nat} {e : Int} (num : unpack b = .num n m e)
    (pos : 0 < m) : ∃ d c y, (roundTo fmtDouble w false (invSqrt m e)).write = some (d, c) ∧ (unpack d).isNumber y ∧
      0 < y ∧ (31 / 32) ^ 2 ≤ y ^ 2 * (m * 2 ^ e) ∧ y ^ 2 * (m * 2 ^ e) ≤ (33 / 32) ^ 2 := by
  have short := unpack_num_lt num
  obtain ⟨low, high⟩ := unpack_num_range num
  obtain ⟨X, positive, stands, lower, upper⟩ := invSqrt_bound pos short e
  have least : (2 : Rat) ^ (-1074 : Int) ≤ m * 2 ^ e :=
    (two_zpow_le_iff.2 low).trans (le_mul_of_one_le_left (by positivity) (Nat.one_le_cast.2 pos))
  have most : (m : Rat) * 2 ^ e ≤ 2 ^ (1024 : Int) := by
    calc (m : Rat) * 2 ^ e ≤ (2 ^ 53 : Nat) * 2 ^ e :=
          mul_le_mul_of_nonneg_right (Nat.cast_le.2 short.le) (by positivity)
      _ = 2 ^ ((53 : Nat) + e : Int) := two_pow_mul_zpow 53 e
      _ ≤ 2 ^ (1024 : Int) := two_zpow_le_iff.2 (by omega)
  have xpos : (0 : Rat) < m * 2 ^ e := (show (0 : Rat) < 2 ^ (-1074 : Int) by positivity).trans_le least
  obtain ⟨normal, inRange⟩ := inverse_root_range positive least most lower upper
  have largest : (2 : Rat) ^ (1000 : Int) ≤
      (2 ^ fmtDouble.prec - 1) * 2 ^ (fmtDouble.emax - ((fmtDouble.prec : Int) - 1)) := by
    show _ ≤ ((2 : Rat) ^ 53 - 1) * 2 ^ (971 : Int)
    calc (2 : Rat) ^ (1000 : Int) = 2 ^ (29 : Int) * 2 ^ (971 : Int) := by
          rw [show (1000 : Int) = 29 + 971 by omega, zpow_add₀ (by norm_num)]
      _ ≤ _ := mul_le_mul_of_nonneg_right (by norm_num) (by positivity)
  have absolute : |X| = X := abs_of_pos positive
  obtain ⟨d, c, y, write, number, close⟩ := roundTo_close (w := w) fmtDouble_sound stands
    (by rw [absolute]; exact normal) (by rw [absolute]; exact inRange.trans largest)
  rw [absolute] at close
  have near : X / 2 ^ (fmtDouble.prec - 1) ≤ X / 1000 :=
    div_le_div_of_nonneg_left positive.le (by norm_num) (by show (1000 : Rat) ≤ 2 ^ 52; norm_num)
  obtain ⟨above, below⟩ := abs_le.1 (close.trans near)
  have smallest : 999 / 1000 * X ≤ y := by linarith
  have greatest : y ≤ 1001 / 1000 * X := by linarith
  have ypos : 0 < y := (show 0 < 999 / 1000 * X by positivity).trans_le smallest
  refine ⟨d, c, y, write, number, ypos, ?_, ?_⟩
  · calc (31 / 32 : Rat) ^ 2 ≤ (999 / 1000) ^ 2 * (63 / 64) ^ 2 := by norm_num
      _ ≤ (999 / 1000) ^ 2 * (X ^ 2 * (m * 2 ^ e)) := mul_le_mul_of_nonneg_left lower (by norm_num)
      _ = (999 / 1000 * X) ^ 2 * (m * 2 ^ e) := by ring
      _ ≤ y ^ 2 * (m * 2 ^ e) := mul_le_mul_of_nonneg_right (pow_le_pow_left₀ (by positivity) smallest 2) xpos.le
  · calc y ^ 2 * (m * 2 ^ e) ≤ (1001 / 1000 * X) ^ 2 * (m * 2 ^ e) :=
          mul_le_mul_of_nonneg_right (pow_le_pow_left₀ ypos.le greatest 2) xpos.le
      _ = (1001 / 1000) ^ 2 * (X ^ 2 * (m * 2 ^ e)) := by ring
      _ ≤ (1001 / 1000) ^ 2 * (65 / 64) ^ 2 := mul_le_mul_of_nonneg_left upper (by norm_num)
      _ ≤ (33 / 32) ^ 2 := by norm_num

theorem fpRsqrte_bound {w : Word} {b : Dword} {x : Rat} (ieee : fpNI w = false) (hb : (unpack b).isNumber x)
    (positive : 0 < x) : ∃ d c y, (fpRsqrte w b).write = some (d, c) ∧ (unpack d).isNumber y ∧ 0 < y ∧
      (31 / 32) ^ 2 ≤ y ^ 2 * x ∧ y ^ 2 * x ≤ (33 / 32) ^ 2 := by
  have numbers : ∀ d ∈ [b], isNan d = false := by
    simp [not_isNan_of_isNumber hb]
  obtain ⟨n, m, e, num, pos, value⟩ := unpack_num_of_isNumber hb positive.ne'
  obtain rfl : n = false := by
    have magnitude : 0 < (m : Rat) * 2 ^ e := mul_pos (Nat.cast_pos.2 pos) (by positivity)
    have sign := signFactor_mul_neg_iff n magnitude
    rw [← mul_assoc, ← value] at sign
    exact Bool.eq_false_iff.2 fun h => (sign.2 h).not_gt positive
  have rounded := invSqrt_rounded_bound (w := w) num pos
  rw [signFactor_false, one_mul] at value
  unfold fpRsqrte estimateOut
  dsimp only
  rw [fpOperand_ieee ieee, num, value]
  dsimp only
  show ∃ d c y, (fpSelect fmtDouble w [b] 0 _).write = _ ∧ _
  rw [fpSelect_numbers fmtDouble w numbers]
  by_cases legal : frsqrteLegal m e (Config.frsqrteEstimate b) = true
  · obtain ⟨y, number, bound⟩ := frsqrteLegal_bound legal
    rw [if_pos legal]
    exact ⟨_, _, y, rfl, number, bound⟩
  · rw [if_neg legal]
    exact rounded

/-- Settles O44: the part's estimate obeys its bound, and the correctly rounded number that replaces another does
too. -/
theorem estimatesWithinBounds : Obligations.EstimatesWithinBounds := by
  intro w b x ieee hb nonzero
  exact ⟨fun low high => fpRes_bound ieee hb nonzero low high, fun positive => fpRsqrte_bound ieee hb positive⟩

end Sys2Proof.Machine
end

section
/-! SUPPORT. Proofs/FloatLoads.lean: the floating-point loads of plain storage (O50). -/

namespace Sys2Proof.Machine

/-! ### What a load into an FPR leaves -/

section
variable {s t : State}

/-- The access leaves the FPRs alone, and the write of `frD` the other ones. -/
theorem State.fprsBut_putFpr_of_onlyMemorySystem (h : s.onlyMemorySystem t) (single : Bool) (frD : Reg) (v : Dword) :
    s.fprsBut (t.putFpr single frD v) [frD] := by
  intro q hq
  have other : q ≠ frD := by simpa using hq
  rw [State.readFpr_putFpr_other _ _ _ _ _ other, State.fprIsSingle_putFpr_other _ _ _ _ _ other, h]
  exact ⟨rfl, rfl⟩

/-- A load that wrote one FPR. -/
theorem State.accessedFp_putFpr (h : s.onlyMemorySystem t) (hb : s.sameBytes t) (single : Bool) (frD : Reg)
    (v : Dword) : s.accessedFp (t.putFpr single frD v).advance frD [] := by
  refine ⟨?_, fun q _ => State.readGpr_of_onlyMemorySystem h q,
    State.fprsBut_putFpr_of_onlyMemorySystem h single frD v, hb⟩
  rw [h]
  rfl

/-- A load that wrote an FPR and its base register. -/
theorem State.accessedFp_putFpr_writeGpr (h : s.onlyMemorySystem t) (hb : s.sameBytes t) (single : Bool) (frD : Reg)
    (v : Dword) (rA : Reg) (e : Word) :
    s.accessedFp ((t.putFpr single frD v).writeGpr rA e).advance frD [rA] := by
  refine ⟨?_, fun q hq => ?_, State.fprsBut_putFpr_of_onlyMemorySystem h single frD v, hb⟩
  · rw [h]
    rfl
  · rw [State.readGpr_advance, State.readGpr_writeGpr_other _ _ _ _ (by simpa using hq)]
    exact State.readGpr_of_onlyMemorySystem h q

end

/-! ### The load forms -/

/-- `i` completes in `t` with the value `v` in `frD`, written by a single-precision load or not, and the GPRs of `l`
written too. -/
def State.fpLoaded (s : State) (i : Instr) (frD : Reg) (l : List Reg) (single : Bool) (v : Dword) (t : State) : Prop :=
  exec i s = .next t ∧ s.accessedFp t frD l ∧ t.readFpr frD = v ∧ t.fprIsSingle frD = single

section
variable {s : State} {i : Instr} {f : AlignForm} {ea pa : Word} {wimg : BitVec 4} {n : Nat} {frD rA : Reg}
  {single : Bool}

/-- With MSR[FP] = 1 a floating-point load of plain storage is a load of it. -/
theorem State.fpLoadForm_plain (fp : s.msrFP = true) (hn : n = 4 ∨ n = 8) (hp : s.plainOperand .fpLoad ea pa wimg n)
    (put : List Byte → State → State) (rest : State → State) :
    ∃ t, s.fpLoadForm i f ea n put rest = .next (rest (put (s.operandBytes pa n) t)).advance ∧
      s.onlyMemorySystem t ∧ s.sameBytes t := by
  have one : oneAccess ea n := hp.2.2
  rw [State.fpLoadForm, State.needFp_on fp, if_pos (wordAligned_of_oneAccess hn one)]
  exact State.loadForm_plain (by decide) hp put rest

/-- A load that writes no GPR. -/
theorem State.fpLoad_done (value : List Byte → Dword) (fp : s.msrFP = true) (hn : n = 4 ∨ n = 8)
    (hp : s.plainOperand .fpLoad ea pa wimg n)
    (run : exec i s = s.fpLoadForm i f ea n (fun b t => t.putFpr single frD (value b)) fun t => t) :
    ∃ t, s.fpLoaded i frD [] single (value (s.operandBytes pa n)) t := by
  obtain ⟨t, loaded, only, same⟩ := State.fpLoadForm_plain (i := i) (f := f) fp hn hp
    (fun b t => t.putFpr single frD (value b)) fun t => t
  generalize value (s.operandBytes pa n) = v at loaded ⊢
  exact ⟨_, run.trans loaded, State.accessedFp_putFpr only same single frD v, State.readFpr_putFpr_same t single frD v,
    State.fprIsSingle_putFpr_same t single frD v⟩

/-- A load with update, whose base register is not 0. -/
theorem State.fpLoadUpdate_done (value : List Byte → Dword) (fp : s.msrFP = true) (h0 : rA ≠ 0) (hn : n = 4 ∨ n = 8)
    (hp : s.plainOperand .fpLoad ea pa wimg n)
    (run : exec i s = s.fpLoadForm i f ea n (fun b t => t.putFpr single frD (value b)) fun t => t.updateBase rA ea) :
    ∃ t, s.fpLoaded i frD [rA] single (value (s.operandBytes pa n)) t ∧ t.readGpr rA = ea := by
  obtain ⟨t, loaded, only, same⟩ := State.fpLoadForm_plain (i := i) (f := f) fp hn hp
    (fun b t => t.putFpr single frD (value b)) fun t => t.updateBase rA ea
  rw [State.updateBase, if_neg h0] at loaded
  generalize value (s.operandBytes pa n) = v at loaded ⊢
  exact ⟨_, ⟨run.trans loaded, State.accessedFp_putFpr_writeGpr only same single frD v rA ea,
    State.readFpr_putFpr_same t single frD v, State.fprIsSingle_putFpr_same t single frD v⟩,
    State.readGpr_writeGpr_same _ _ _⟩

end

/-- The value of a single-precision load: DOUBLE of the word (R470). -/
def doubleOfBytes (bs : List Byte) : Dword := doubleOf (wordOf bs)

/-- Settles O50: every form is the one floating-point load, with its own size and value. -/
theorem fpLoads : Obligations.FpLoads := by
  intro s frD rA rB d pa wimg fp base ea ex val single double loaded done updated
  refine ⟨fun h => ⟨?_, fun h0 => ?_⟩, fun h => ⟨?_, fun h0 => ?_⟩, fun h => ⟨?_, fun h0 => ?_⟩,
    fun h => ⟨?_, fun h0 => ?_⟩⟩
  · exact State.fpLoad_done doubleOfBytes fp (.inl rfl) h rfl
  · exact State.fpLoadUpdate_done doubleOfBytes fp h0 (.inl rfl) h rfl
  · exact State.fpLoad_done doubleOfBytes fp (.inl rfl) h rfl
  · exact State.fpLoadUpdate_done doubleOfBytes fp h0 (.inl rfl) h rfl
  · exact State.fpLoad_done doubleBytes fp (.inr rfl) h rfl
  · exact State.fpLoadUpdate_done doubleBytes fp h0 (.inr rfl) h rfl
  · exact State.fpLoad_done doubleBytes fp (.inr rfl) h rfl
  · exact State.fpLoadUpdate_done doubleBytes fp h0 (.inr rfl) h rfl

end Sys2Proof.Machine
end

section
/-! SUPPORT. Proofs/Branches.lean: the branches (O10), condition register logic (O11) and the traps (O12). -/

namespace Sys2Proof.Machine

/-! ### Displacements and targets (R613) -/

/-- Two zeros below a field multiply its signed value by four. -/
theorem toInt_append_two_zeros {n : Nat} (x : BitVec n) : (x ++ 0#2).toInt = x.toInt * 4 := by
  have scaled : (x ++ 0#2).toNat = x.toNat * 4 := by
    rw [BitVec.toNat_append, BitVec.toNat_ofNat, Nat.zero_mod, Nat.or_zero, Nat.shiftLeft_eq]
  have half : 2 ^ (n + 2) = 2 ^ n * 4 := Nat.pow_add 2 n 2
  rw [BitVec.toInt_eq_toNat_cond, BitVec.toInt_eq_toNat_cond, scaled, half]
  generalize 2 ^ n = m
  split <;> split <;> omega

/-- The displacement of `b` counts words. -/
theorem offsetLI_eq (li : BitVec 24) : offsetLI li = BitVec.ofInt 32 (li.toInt * 4) :=
  congrArg (BitVec.ofInt 32) (toInt_append_two_zeros li)

/-- The displacement of `bc` counts words. -/
theorem offsetBD_eq (bd : BitVec 14) : offsetBD bd = BitVec.ofInt 32 (bd.toInt * 4) :=
  congrArg (BitVec.ofInt 32) (toInt_append_two_zeros bd)

/-- An absolute target is a displacement from 0 (R613: AA). -/
theorem absolute_or_relative (aa : Bool) (pc d : Word) :
    (if aa then d else pc + d) = (if aa then 0 else pc) + d := by
  cases aa
  · rfl
  · exact (BitVec.zero_add d).symm

/-! ### Conditional branches (R614, R616) -/

section
variable {s : State} {bo bi : BitVec 5} {lk : Bool}

/-- A conditional branch writes CTR, LR and pc, as the condition of R614 says. -/
theorem State.branchTo_eq (target : Word) : s.branchTo bo bi lk target = .next { s with
    ctr := s.branchCtr bo
    lr := if lk then s.pc + 4 else s.lr
    pc := if branchCondition bo (s.branchCtr bo) (beBit s.cr bi.toNat) then target else s.pc + 4 } := rfl

/-- With BO[2] = 1 CTR stays. -/
theorem State.branchCtr_kept (keeps : bo.getMsbD 2 = true) : s.branchCtr bo = s.ctr := if_pos keeps

/-- `bcctr` in its valid form (R623). -/
theorem execBcctr_valid (keeps : bo.getMsbD 2 = true) : execBcctr bo bi lk s = .next { s with
    lr := if lk then s.pc + 4 else s.lr
    pc := if branchCondition bo (s.branchCtr bo) (beBit s.cr bi.toNat) then alignWord s.ctr else s.pc + 4 } := by
  rw [execBcctr, if_pos keeps, State.branchTo_eq, State.branchCtr_kept keeps]

/-- `bcctr` in its invalid form goes to a free address, if it is taken (92 D19). -/
theorem execBcctr_invalid (decrements : bo.getMsbD 2 = false) : execBcctr bo bi lk s = .next { s with
    ctr := s.branchCtr bo
    lr := if lk then s.pc + 4 else s.lr
    pc := if branchCondition bo (s.branchCtr bo) (beBit s.cr bi.toNat) then alignWord s.drawWord.1 else s.pc + 4
    fresh := s.fresh + 1 } :=
  if_neg (Bool.eq_false_iff.1 decrements)

end

/-- Settles O10: the displacements count words, and the conditional forms are one branch, each with its target. -/
theorem branchInstructions : Obligations.BranchInstructions := by
  intro s li bd bo bi aa lk after link go
  refine ⟨?_, ?_, State.branchTo_eq _, execBcctr_valid, fun decrements =>
    ⟨_, aligned_alignWord _, execBcctr_invalid decrements⟩⟩
  · rw [← offsetLI_eq, ← absolute_or_relative]
    rfl
  · rw [← offsetBD_eq, ← absolute_or_relative]
    exact State.branchTo_eq _

/-! ### Condition register logic (R630 to R639) -/

/-- A 4-bit field, bit by bit (R276). -/
theorem getField4_eq_crBits (w : Word) (n : BitVec 3) : getField4 w n.toNat =
    crBits (beBit w (4 * n.toNat)) (beBit w (4 * n.toNat + 1)) (beBit w (4 * n.toNat + 2))
      (beBit w (4 * n.toNat + 3)) := by
  have bit {j : Nat} (hj : j < 4) : (getField4 w n.toNat).getMsbD j = beBit w (4 * n.toNat + j) :=
    getField4_getMsbD w n.isLt hj
  rw [← crBits_of_bits (getField4 w n.toNat), bit (by decide), bit (by decide), bit (by decide), bit (by decide),
    Nat.add_zero]

/-- `mcrf` copies a field of CR as a compare writes one (R639). -/
theorem execMcrf_eq_putCompare (s : State) (fD fS : BitVec 3) : execMcrf fD fS s =
    s.putCompare fD (crBits (beBit s.cr (4 * fS.toNat)) (beBit s.cr (4 * fS.toNat + 1))
      (beBit s.cr (4 * fS.toNat + 2)) (beBit s.cr (4 * fS.toNat + 3))) :=
  congrArg (s.putCompare fD) (getField4_eq_crBits s.cr fS)

/-- Settles O11: each logical form writes one bit of CR, and `mcrf` one field. -/
theorem conditionRegisterLogic : Obligations.ConditionRegisterLogic := by
  intro s d a b fD fS x y done
  have logical {i : Instr} {v : Bool} (run : exec i s = s.putCrBit d v) : done i v := by
    obtain ⟨t, next, rest⟩ := putCrBit_spec s d v
    exact ⟨t, run.trans next, rest⟩
  obtain ⟨t, next, rest⟩ := putCompare_spec s fD _ _ _ _
  exact ⟨logical rfl, logical rfl, logical rfl, logical rfl, logical rfl, logical rfl, logical rfl, logical rfl,
    t, (execMcrf_eq_putCompare s fD fS).trans next, rest⟩

/-! ### Traps (R640) -/

/-- The trap condition in integers: one of the five comparisons holds that TO selects. -/
theorem trapMet_iff (cond : BitVec 5) (a b : Word) : trapMet cond a b = true ↔
    (cond.getMsbD 0 = true ∧ a.toInt < b.toInt) ∨ (cond.getMsbD 1 = true ∧ b.toInt < a.toInt) ∨
      (cond.getMsbD 2 = true ∧ a.toInt = b.toInt) ∨ (cond.getMsbD 3 = true ∧ a.toNat < b.toNat) ∨
      (cond.getMsbD 4 = true ∧ b.toNat < a.toNat) := by
  simp only [trapMet, Bool.or_eq_true, Bool.and_eq_true, or_assoc, BitVec.slt_iff_toInt_lt, BitVec.ult_iff_toNat_lt,
    beq_iff_eq, BitVec.toInt_inj]

theorem State.trapIf_met {s : State} {met : Bool} (h : met = true) : s.trapIf met = .next s.takeTrap :=
  congrArg Host.Outcome.next (if_pos h)

theorem State.trapIf_unmet {s : State} {met : Bool} (h : ¬met = true) : s.trapIf met = .next s.advance :=
  congrArg Host.Outcome.next (if_neg h)

/-- Settles O12: both forms test the condition of R640, the immediate one with the extended immediate. -/
theorem trapInstructions : Obligations.TrapInstructions := by
  intro s cond rA rB imm met a b c done
  have traps {i : Instr} {y : Word} (run : exec i s = s.trapIf (trapMet cond a y)) :
      done i (met a.toInt y.toInt a.toNat y.toNat) :=
    ⟨fun holds => ⟨_, run.trans (State.trapIf_met ((trapMet_iff cond a y).2 holds)),
        State.tookException_takeException _ _ _ _⟩,
      fun fails => run.trans (State.trapIf_unmet (mt (trapMet_iff cond a y).1 fails))⟩
  exact ⟨traps rfl, traps rfl⟩

end Sys2Proof.Machine
end

section
/-! SUPPORT. Proofs/ExceptionReturn.lean: `sc`, `rfi`, and `rfi` as the inverse of an exception entry (O14). -/

namespace Sys2Proof.Machine

section
variable {s : State}

/-- Without FE0, FE1 or without FEX the test of R770 takes nothing. -/
theorem State.recheckFp_quiet (quiet : (s.msrFE && beBit s.fpscr 1) = false) : s.recheckFp = s :=
  if_neg (Bool.eq_false_iff.1 quiet)

theorem State.recheckFp_noException (fex : beBit s.fpscr 1 = false) : s.recheckFp = s :=
  State.recheckFp_quiet (by rw [fex, Bool.and_false])

/-- `rfi` in supervisor mode (R655, R770). -/
theorem exec_rfi_supervisor (supervisor : s.msrPR = false) :
    exec .rfi s = .next s.returnFromException.recheckFp := State.supervisorOnly_supervisor supervisor _

/-- An entry leaves the machine in supervisor mode (R740). -/
theorem State.takeException_supervisor (off srr0 info : Word) : (s.takeException off srr0 info).msrPR = false := by
  rw [State.msrPR, State.takeException, State.enter_msr, beBit_or, beBit_and]
  cases beBit s.msr 15 <;> exact (Bool.or_false _).trans (Bool.and_false _)

end

/-! ### The MSR after an entry and a return (R655, R736) -/

/-- A word without the bits of `k` is without some of them. -/
theorem and_eq_zero_of_submask {w k j : Word} (h : w &&& k = 0) (sub : k &&& j = j) : w &&& j = 0#32 := by
  rw [← sub, ← BitVec.and_assoc, h]
  exact BitVec.zero_and

/-- Of MSR[0:15] an entry keeps ILE alone. -/
theorem entryMsr_high (m : Word) (le : Bool) :
    ((m &&& 0x00011044) ||| wordOfBool le) &&& 0xFFFF0000 = m &&& 0x00010000 := by
  have little : wordOfBool le &&& 0xFFFF0000 = 0#32 := by cases le <;> rfl
  rw [BitVec.and_or_distrib_right, little, BitVec.or_zero, BitVec.and_assoc]
  rfl

/-- SRR1[16:31] holds MSR[16:31] where the information bits are all in SRR1[0:15]. -/
theorem entrySrr1_low (m : Word) {info : Word} (high : info &&& 0x0000FFFF = 0) :
    ((m &&& 0x0000FFFF) ||| info) &&& 0x0000FF77 = m &&& 0x0000FF77 := by
  rw [BitVec.and_or_distrib_right, and_eq_zero_of_submask high (j := 0x0000FF77) rfl, BitVec.or_zero, BitVec.and_assoc]
  rfl

/-- Bits 24 and 28, which `rfi` does not restore, were 0. -/
theorem returnedMsr {m : Word} (reserved : m &&& 0xFFFA0088 = 0) :
    (m &&& 0x00010000) ||| (m &&& 0x0000FF77) = m &&& 0x0001FFFF := by
  have unset : m &&& 0x00000088 = 0#32 := and_eq_zero_of_submask reserved rfl
  calc (m &&& 0x00010000) ||| (m &&& 0x0000FF77)
      = (m &&& 0x0001FF77) ||| (m &&& 0x00000088) := by rw [unset, BitVec.or_zero, ← BitVec.and_or_distrib_left]; rfl
    _ = m &&& 0x0001FFFF := by rw [← BitVec.and_or_distrib_left]; rfl

theorem alignWord_alignWord (a : Word) : alignWord (alignWord a) = alignWord a := BitVec.and_assoc ..

/-- A return restores what the entry saved. -/
theorem State.returnFromException_takeException {s : State} (reserved : s.msr &&& 0xFFFA0088 = 0) (off srr0 : Word)
    {info : Word} (high : info &&& 0x0000FFFF = 0) :
    (s.takeException off srr0 info).returnFromException = { s.takeException off srr0 info with
      msr := s.msr &&& 0x0001FFFF, pc := srr0 &&& 0xFFFFFFFC } := by
  have msr : (((s.msr &&& 0x00011044) ||| wordOfBool (beBit s.msr 15)) &&& 0xFFFF0000) |||
      (((s.msr &&& 0x0000FFFF) ||| info) &&& 0x0000FF77) = s.msr &&& 0x0001FFFF := by
    rw [entryMsr_high, entrySrr1_low _ high, returnedMsr reserved]
  have pc : alignWord (alignWord srr0) = srr0 &&& 0xFFFFFFFC := alignWord_alignWord srr0
  rw [← msr, ← pc]
  rfl

/-- Settles O14: `sc` is an entry; `rfi` returns where R770 takes nothing, and an entry leaves what it needs. -/
theorem systemCallAndReturn : Obligations.SystemCallAndReturn := by
  refine ⟨fun s => ⟨_, rfl, State.tookException_takeException _ _ _ _⟩, fun s supervisor => ?_,
    fun s off srr0 info ⟨reserved, _⟩ fex high => ?_⟩
  · intro t quiet
    exact (exec_rfi_supervisor supervisor).trans (congrArg _ (State.recheckFp_quiet (s := t) quiet))
  · rw [exec_rfi_supervisor (State.takeException_supervisor off srr0 info),
      State.returnFromException_takeException reserved off srr0 high]
    exact congrArg _ (State.recheckFp_noException fex)

end Sys2Proof.Machine
end

section
/-! SUPPORT. Proofs/StatusMoves.lean: the moves of MSR, CR, XER, the time base and the segment registers (O19). -/

namespace Sys2Proof.Machine

/-! ### The mask of the CR fields that `mtcrf` writes (R276) -/

/-- The mask of the selected fields among the first `n`. -/
def fieldMaskUpTo (fm : BitVec 8) (n : Nat) : Word :=
  (List.range n).foldl (fun m i => if fm.getMsbD i then m ||| (0xF#32 <<< (28 - 4 * i)) else m) 0

theorem fieldMask_eq_upTo (fm : BitVec 8) : fieldMask fm = fieldMaskUpTo fm 8 := rfl

theorem fieldMaskUpTo_succ (fm : BitVec 8) (n : Nat) : fieldMaskUpTo fm (n + 1) =
    if fm.getMsbD n then fieldMaskUpTo fm n ||| (0xF#32 <<< (28 - 4 * n)) else fieldMaskUpTo fm n := by
  rw [fieldMaskUpTo, List.range_succ, List.foldl_append]
  rfl

/-- The mask of one field: all its bits written to the word 0. -/
theorem beBit_oneField {n : Nat} (hn : n < 8) (k : Nat) : beBit (0xF#32 <<< (28 - 4 * n)) k = decide (k / 4 = n) := by
  have field : 0xF#32 <<< (28 - 4 * n) = setField4 0 n 0xF#4 := by
    rw [setField4, show (0 : Word) = 0#32 from rfl, BitVec.zero_and, BitVec.zero_or]
    rfl
  have ones : (0xF#4).getMsbD (k % 4) = true :=
    BitVec.getMsbD_allOnes.trans (decide_eq_true (Nat.mod_lt k (by decide)))
  have zeros : beBit (0 : Word) k = false := BitVec.getMsbD_zero
  rw [field, beBit_setField4 _ hn, ones, zeros]
  by_cases h : k / 4 = n <;> simp [h]

theorem beBit_fieldMaskUpTo (fm : BitVec 8) {n : Nat} (hn : n ≤ 8) (k : Nat) :
    beBit (fieldMaskUpTo fm n) k = (decide (k / 4 < n) && fm.getMsbD (k / 4)) := by
  induction n with
  | zero => exact BitVec.getMsbD_zero
  | succ n ih =>
    have before := ih (by omega)
    rw [fieldMaskUpTo_succ]
    by_cases here : k / 4 = n
    · subst here
      split
      next on => rw [beBit_or, beBit_oneField hn, on]; simp
      next off => rw [before, Bool.eq_false_iff.2 off]; simp
    · have same : decide (k / 4 < n + 1) = decide (k / 4 < n) := decide_eq_decide.2 (by omega)
      split
      next => rw [beBit_or, beBit_oneField hn, before, same, decide_eq_false here, Bool.or_false]
      next => rw [before, same]

/-- A bit of the mask: whether its field is selected. -/
theorem beBit_fieldMask (fm : BitVec 8) {k : Nat} (hk : k < 32) : beBit (fieldMask fm) k = fm.getMsbD (k / 4) := by
  rw [fieldMask_eq_upTo, beBit_fieldMaskUpTo fm le_rfl, decide_eq_true (by omega), Bool.true_and]

/-- A write through a field mask takes the selected fields of `x` and the others of `y`. -/
theorem beBit_fieldMask_insert (fm : BitVec 8) (x y : Word) {k : Nat} (hk : k < 32) :
    beBit ((x &&& fieldMask fm) ||| (y &&& ~~~(fieldMask fm))) k =
      if fm.getMsbD (k / 4) then beBit x k else beBit y k := by
  rw [beBit_or, beBit_and, beBit_and, beBit_not _ hk, beBit_fieldMask fm hk]
  cases fm.getMsbD (k / 4) <;> simp

/-! ### The moves, one by one -/

section
variable (s : State)

/-- The lower half of the time base (R668). -/
theorem exec_mftb_lower (r : Reg) :
    exec (.mftb r 268) s = .next (s.writeGpr r (BitVec.ofNat 32 s.tb.toNat)).advance := rfl

/-- The upper half of the time base (R668). -/
theorem exec_mftb_upper (r : Reg) :
    exec (.mftb r 269) s = .next (s.writeGpr r (BitVec.ofNat 32 (s.tb.toNat / 4294967296))).advance := by
  have upper : s.tb.extractLsb' 32 32 = BitVec.ofNat 32 (s.tb.toNat / 4294967296) :=
    congrArg (BitVec.ofNat 32) (Nat.shiftRight_eq_div_pow s.tb.toNat 32)
  rw [← upper]
  rfl

/-- `mtcrf` writes the selected fields of CR (R658). -/
theorem exec_mtcrf_spec (r : Reg) (crm : BitVec 8) : ∃ t, exec (.mtcrf r crm) s = .next t ∧
    t = { s with cr := t.cr, pc := s.pc + 4 } ∧
    ∀ k, k < 32 → beBit t.cr k = if crm.getMsbD (k / 4) then beBit (s.readGpr r) k else beBit s.cr k :=
  ⟨_, rfl, rfl, fun _ hk => beBit_fieldMask_insert crm (s.readGpr r) s.cr hk⟩

/-- `mcrxr` moves XER[0:3] to a field of CR (R659). -/
theorem exec_mcrxr_spec (fD : BitVec 3) : ∃ t, exec (.mcrxr fD) s = .next t ∧
    t = { s with cr := t.cr, xer := s.xer &&& 0x0FFFFFFF, pc := s.pc + 4 } ∧
    s.crFieldIs t fD (beBit s.xer 0) (beBit s.xer 1) (beBit s.xer 2) (beBit s.xer 3) := by
  have copied := State.crFieldIs_setCrField (s := s) (u := s) rfl fD (beBit s.xer 0) (beBit s.xer 1) (beBit s.xer 2)
    (beBit s.xer 3)
  have flags : getField4 s.xer 0 = crBits (beBit s.xer 0) (beBit s.xer 1) (beBit s.xer 2) (beBit s.xer 3) :=
    getField4_eq_crBits s.xer 0
  rw [← flags] at copied
  exact ⟨_, rfl, rfl, copied⟩

variable {s} (supervisor : s.msrPR = false)
include supervisor

theorem exec_mfmsr_supervisor (r : Reg) : exec (.mfmsr r) s = .next (s.writeGpr r s.msr).advance :=
  State.supervisorOnly_supervisor supervisor _

/-- `mtmsr` in supervisor mode (R656, R770). -/
theorem exec_mtmsr_supervisor (r : Reg) :
    exec (.mtmsr r) s = .next (State.advance { s with msr := s.readGpr r &&& msrMask }).recheckFp :=
  State.supervisorOnly_supervisor supervisor _

/-- A write of a segment register in supervisor mode: that register, nothing else (R696, R697). -/
theorem State.putSr_spec (k : BitVec 4) (v : Word) : ∃ t, s.putSr k v = .next t ∧
    t = { s with mmu := { s.mmu with sr := t.mmu.sr }, pc := s.pc + 4 } ∧
    t.readSr k = (if beBit v 0 then v else v &&& 0xF0FFFFFF) ∧ ∀ j, j ≠ k → t.readSr j = s.readSr j :=
  ⟨(s.writeSr k v).advance, State.supervisorOnly_supervisor supervisor _, rfl, State.readSr_writeSr_same s k v,
    fun j hj => State.readSr_writeSr_other s k j v hj⟩

/-- A read of a segment register in supervisor mode (R698, R699). -/
theorem State.getSr_supervisor (r : Reg) (k : BitVec 4) :
    s.getSr r k = .next (s.writeGpr r (s.readSr k)).advance := State.supervisorOnly_supervisor supervisor _

end

/-- Settles O19: each move has its value and frame; the four segment forms are one write and one read. -/
theorem statusAndSegmentMoves : Obligations.StatusAndSegmentMoves := by
  constructor
  · intro s r crm fD put
    refine ⟨rfl, exec_mftb_lower s r, exec_mftb_upper s r, fun supervisor => exec_mfmsr_supervisor supervisor r,
      exec_mtcrf_spec s r crm, exec_mcrxr_spec s fD, fun supervisor => ?_⟩
    intro t quiet
    exact (exec_mtmsr_supervisor supervisor r).trans (congrArg _ (State.recheckFp_quiet (s := t) quiet))
  · intro s r q n supervisor sel v w written
    exact ⟨State.putSr_spec supervisor n v, State.putSr_spec supervisor sel v, State.getSr_supervisor supervisor r n,
      State.getSr_supervisor supervisor r sel⟩

end Sys2Proof.Machine
end

section
/-! SUPPORT. Proofs/DecrementerCondition.lean: which operations leave the decrementer condition as it is (O54). -/

namespace Sys2Proof.Machine

/-- The decrementer condition is pending, or is not (R804). -/
def State.pendingIs (s : State) (d : Bool) : Prop := s.latches.decPending = d

/-- If the outcome is a next state, its decrementer condition is `d`. -/
structure LeadsToPending (d : Bool) (r : Result) : Prop where
  pending : ∀ t, r = .next t → t.pendingIs d

section
variable {s t : State} {d : Bool}

/-! ### States and outcomes -/

theorem State.pendingIs.leads (h : s.pendingIs d) : LeadsToPending d (.next s) := ⟨fun _ e => by cases e; exact h⟩

theorem leadsToPending_refused (x : Refusal) : LeadsToPending d (.refused x) := ⟨fun _ e => by cases e⟩

theorem State.pendingIs.ite {c : Prop} [Decidable c] (hs : s.pendingIs d) (ht : t.pendingIs d) :
    State.pendingIs (if c then s else t) d := by
  split <;> assumption

theorem LeadsToPending.ite {c : Prop} [Decidable c] {a b : Result} (ha : LeadsToPending d a)
    (hb : LeadsToPending d b) : LeadsToPending d (if c then a else b) := by
  split <;> assumption

/-- Translating and accessing operands leaves the condition. -/
theorem State.pendingIs.storage (h : s.pendingIs d) (hs : s.storageStep t) : t.pendingIs d := by
  obtain ⟨only, -⟩ := hs
  unfold State.onlyStorage at only
  rw [only]
  exact h

/-- An exception leaves every latch but the halted state (R736, R863). -/
theorem State.pendingIs.enter (h : s.pendingIs d) (off srr0 info keep copied : Word) :
    (s.enter off srr0 info keep copied).pendingIs d := h

theorem State.pendingIs.takeException (h : s.pendingIs d) (off srr0 info : Word) :
    (s.takeException off srr0 info).pendingIs d := h.enter ..

theorem State.pendingIs.takeMachineCheck (h : s.pendingIs d) (c : McCause) : (s.takeMachineCheck c).pendingIs d :=
  State.pendingIs.enter (s := s.drawWord.2) h ..

theorem State.pendingIs.takeAlignment (h : s.pendingIs d) (w : Word) (f : AlignForm) (ea : Word) :
    (s.takeAlignment w f ea).pendingIs d :=
  State.pendingIs.takeException (s := { s.drawWord.2 with
    exc := { s.exc with dsisr := alignDsisr w f s.drawWord.1, dar := ea } }) h ..

theorem State.pendingIs.takeDsi (h : s.pendingIs d) (dsisr dar : Word) : (s.takeDsi dsisr dar).pendingIs d :=
  State.pendingIs.takeException (s := { s with exc := { s.exc with dsisr := dsisr, dar := dar } }) h ..

theorem State.pendingIs.takeDirectError (h : s.pendingIs d) (dsisr dar : Word) :
    (s.takeDirectError dsisr dar).pendingIs d := State.pendingIs.takeDsi (s := { s with lastIa := s.pc }) h ..

theorem State.pendingIs.supervisorOnly (h : s.pendingIs d) {k : Result} (hk : LeadsToPending d k) :
    LeadsToPending d (s.supervisorOnly k) := LeadsToPending.ite (h.takeException ..).leads hk

theorem State.pendingIs.needFp (h : s.pendingIs d) {k : Result} (hk : LeadsToPending d k) :
    LeadsToPending d (s.needFp k) := LeadsToPending.ite hk (h.takeException ..).leads

theorem State.pendingIs.recheckFp (h : s.pendingIs d) : s.recheckFp.pendingIs d :=
  State.pendingIs.ite (h.takeException ..) h

/-! ### Registers and flags -/

theorem State.pendingIs.advance (h : s.pendingIs d) : s.advance.pendingIs d := h

theorem State.pendingIs.writeGpr (h : s.pendingIs d) (r : Reg) (v : Word) : (s.writeGpr r v).pendingIs d := h

theorem State.pendingIs.undefineGpr (h : s.pendingIs d) (r : Reg) : (s.undefineGpr r).pendingIs d := h

theorem State.pendingIs.putFpr (h : s.pendingIs d) (single : Bool) (r : Reg) (v : Dword) :
    (s.putFpr single r v).pendingIs d := h

theorem State.pendingIs.setCrField (h : s.pendingIs d) (n : Nat) (v : BitVec 4) : (s.setCrField n v).pendingIs d := h

theorem State.pendingIs.withCr (h : s.pendingIs d) (w : Word) : State.pendingIs { s with cr := w } d := h

theorem State.pendingIs.withXer (h : s.pendingIs d) (w : Word) : State.pendingIs { s with xer := w } d := h

theorem State.pendingIs.withMsrPc (h : s.pendingIs d) (w a : Word) : State.pendingIs { s with msr := w, pc := a } d := h

theorem State.pendingIs.undefineCrField (h : s.pendingIs d) (n : Nat) : (s.undefineCrField n).pendingIs d := h

theorem State.pendingIs.badRecordBit (h : s.pendingIs d) (bad : Bool) : (s.badRecordBit bad).pendingIs d :=
  State.pendingIs.ite (h.undefineCrField 0) h

theorem State.pendingIs.recordIf (h : s.pendingIs d) (rc : Bool) (v : Word) : (s.recordIf rc v).pendingIs d :=
  State.pendingIs.ite h h

theorem State.pendingIs.overflowIf (h : s.pendingIs d) (oe ov : Bool) : (s.overflowIf oe ov).pendingIs d :=
  State.pendingIs.ite h h

theorem State.pendingIs.setCa (h : s.pendingIs d) (b : Bool) : (s.setCa b).pendingIs d := h

/-! ### Integer results, branches, traps -/

theorem State.pendingIs.putResult (h : s.pendingIs d) (r : Reg) (v : Word) (rc : Bool) :
    LeadsToPending d (s.putResult r v rc) := ((h.writeGpr r v).recordIf rc v).advance.leads

theorem State.pendingIs.putSum (h : s.pendingIs d) (r : Reg) (a b : Word) (c carries oe rc : Bool) :
    LeadsToPending d (s.putSum r a b c carries oe rc) :=
  ((State.pendingIs.ite (h.setCa _) h).overflowIf oe _).putResult r _ rc

theorem State.pendingIs.putUndefinedQuotient (h : s.pendingIs d) (r : Reg) (q : Word) (c : BitVec 3) (oe rc : Bool) :
    LeadsToPending d (s.putUndefinedQuotient r q c oe rc) := by
  have written := (h.overflowIf oe true).writeGpr r q
  exact (State.pendingIs.ite (written.setCrField 0 _) written).advance.leads

theorem State.pendingIs.putQuotient (h : s.pendingIs d) (r : Reg) (q : Word) (oe rc : Bool) :
    LeadsToPending d (s.putQuotient r q oe rc) := (h.overflowIf oe false).putResult r q rc

theorem State.pendingIs.putCompare (h : s.pendingIs d) (n : BitVec 3) (c : BitVec 4) :
    LeadsToPending d (s.putCompare n c) := (h.setCrField n.toNat c).advance.leads

theorem State.pendingIs.putAlgebraic (h : s.pendingIs d) (r : Reg) (v : Word × Bool) (rc : Bool) :
    LeadsToPending d (s.putAlgebraic r v rc) := (h.setCa _).putResult r _ rc

theorem State.pendingIs.branchTo (h : s.pendingIs d) (bo bi : BitVec 5) (lk : Bool) (target : Word) :
    LeadsToPending d (s.branchTo bo bi lk target) :=
  State.pendingIs.leads (s := { s with
    ctr := s.branchCtr bo
    lr := if lk then s.nextAddr else s.lr
    pc := if s.branchTaken bo bi then target else s.nextAddr }) h

theorem State.pendingIs.execB (h : s.pendingIs d) (li : BitVec 24) (aa lk : Bool) :
    LeadsToPending d (execB li aa lk s) :=
  State.pendingIs.leads (s := { s with
    lr := if lk then s.nextAddr else s.lr
    pc := if aa then offsetLI li else s.pc + offsetLI li }) h

theorem State.pendingIs.putCrBit (h : s.pendingIs d) (n : BitVec 5) (v : Bool) : LeadsToPending d (s.putCrBit n v) :=
  State.pendingIs.leads (s := State.advance { s with cr := setBeBit s.cr n.toNat v }) h

theorem State.pendingIs.trapIf (h : s.pendingIs d) (met : Bool) : LeadsToPending d (s.trapIf met) :=
  (State.pendingIs.ite (h.takeException ..) h.advance).leads

/-! ### Floating point -/

theorem State.pendingIs.withFpscr (h : s.pendingIs d) (w : Word) : State.pendingIs { s with fpscr := w } d := h

theorem State.pendingIs.bitOrFree (h : s.pendingIs d) (b : Option Bool) : (s.bitOrFree b).2.pendingIs d := by
  cases b <;> exact h

theorem State.pendingIs.fpDone (h : s.pendingIs d) (rc : Bool) : LeadsToPending d (s.fpDone rc) := by
  have recorded : (s.recordFpIf rc).pendingIs d := State.pendingIs.ite h h
  exact LeadsToPending.ite (State.pendingIs.leads (State.pendingIs.takeException
    (s := { s.recordFpIf rc with lastIa := (s.recordFpIf rc).pc }) recorded ..)) recorded.advance.leads

theorem State.pendingIs.withFloat (h : s.pendingIs d) (single : Bool) (frD : Reg) (r : FpOut) :
    (s.withFloat single frD r).pendingIs d := by
  have drawn := (h.bitOrFree r.fr).bitOrFree r.fi
  unfold State.withFloat
  dsimp only
  split <;> exact drawn

theorem State.pendingIs.putFloat (h : s.pendingIs d) (single : Bool) (frD : Reg) (r : FpOut) (rc : Bool) :
    LeadsToPending d (s.putFloat single frD r rc) := (h.withFloat single frD r).fpDone rc

theorem State.pendingIs.putSingle (h : s.pendingIs d) (frD : Reg) (ops : List Dword) (could : Word) (r : FpOut)
    (rc : Bool) : LeadsToPending d (s.putSingle frD ops could r rc) := by
  have free : (s.withFreeSingle frD could).pendingIs d := h
  rw [State.putSingle_eq]
  exact (State.pendingIs.ite free (h.withFloat true frD r)).fpDone rc

theorem State.pendingIs.putInt (h : s.pendingIs d) (frD : Reg) (r : IntOut) (rc : Bool) :
    LeadsToPending d (s.putInt frD r rc) := by
  have written : (s.withInt frD r).pendingIs d := by
    unfold State.withInt
    split <;> exact h
  rw [State.putInt_eq]
  exact written.fpDone rc

theorem State.pendingIs.putFloatCompare (h : s.pendingIs d) (n : BitVec 3) (c : BitVec 4) (exc : Word) (rc : Bool) :
    LeadsToPending d (s.putFloatCompare n c exc rc) := by
  have noted (w : Word) := h.withFpscr w
  exact (State.pendingIs.ite ((noted _).undefineCrField _) ((noted _).setCrField _ _)).fpDone false

theorem State.pendingIs.putMove (h : s.pendingIs d) (frD : Reg) (v : Dword) (rc : Bool) :
    LeadsToPending d (s.putMove frD v rc) := (h.putFpr false frD v).fpDone rc

theorem State.pendingIs.putFpscr (h : s.pendingIs d) (m v : Word) (settles rc : Bool) :
    LeadsToPending d (s.putFpscr m v settles rc) := (h.withFpscr _).fpDone rc

/-! ### Loads and stores -/

/-- An access leaves the condition if what it writes to registers does. -/
theorem State.pendingIs.finishWith (h : s.pendingIs d) {r : Acc} (hr : r.within s) (w : Word) (f : AlignForm)
    (ea : Word) {target : List Byte → State → State} {rest : State → State} {part : List Byte → State → State}
    (htarget : ∀ b u, u.pendingIs d → (target b u).pendingIs d) (hrest : ∀ u, u.pendingIs d → (rest u).pendingIs d)
    (hpart : ∀ b u, u.pendingIs d → (part b u).pendingIs d) :
    LeadsToPending d (r.finishWith w f ea target rest part) := by
  cases r with
  | ok b u => exact (hrest _ (htarget b u (h.storage hr))).advance.leads
  | okError b c e u => exact ((htarget b u (h.storage hr)).takeDirectError c e).leads
  | dsi b c e u => exact ((hpart b u (h.storage hr)).takeDsi c e).leads
  | align u => exact ((h.storage hr).takeAlignment w f ea).leads
  | refuse x => exact leadsToPending_refused x

theorem State.pendingIs.finish (h : s.pendingIs d) {r : Acc} (hr : r.within s) (w : Word) (f : AlignForm) (ea : Word)
    {target : List Byte → State → State} {rest : State → State}
    (htarget : ∀ b u, u.pendingIs d → (target b u).pendingIs d)
    (hrest : ∀ u, u.pendingIs d → (rest u).pendingIs d) : LeadsToPending d (r.finish w f ea target rest) :=
  h.finishWith hr w f ea htarget hrest fun _ _ hu => hu

theorem State.pendingIs.updateLoad (h : s.pendingIs d) (rD rA : Reg) (ea : Word) :
    (s.updateLoad rD rA ea).pendingIs d :=
  State.pendingIs.ite (h.undefineGpr 0) (State.pendingIs.ite (h.undefineGpr rD) (h.writeGpr rA ea))

theorem State.pendingIs.updateBase (h : s.pendingIs d) (rA : Reg) (ea : Word) : (s.updateBase rA ea).pendingIs d :=
  State.pendingIs.ite (h.undefineGpr 0) (h.writeGpr rA ea)

/-- A load into a GPR. -/
theorem State.pendingIs.loadGpr (h : s.pendingIs d) {i : Instr} {u : Use} {f : AlignForm} {ea : Word} {n : Nat}
    {rD : Reg} {value : List Byte → Word} {rest : State → State}
    (hrest : ∀ u, u.pendingIs d → (rest u).pendingIs d) :
    LeadsToPending d (s.loadForm i u f ea n (fun b t => t.writeGpr rD (value b)) rest) :=
  h.finish (s.loadOperands_within u _) _ f ea (fun _ _ hu => hu) hrest

theorem State.pendingIs.storeForm (h : s.pendingIs d) {i : Instr} {u : Use} {f : AlignForm} {ea : Word}
    {bs : List Byte} {rest : State → State} (hrest : ∀ u, u.pendingIs d → (rest u).pendingIs d) :
    LeadsToPending d (s.storeForm i u f ea bs rest) :=
  h.finish (s.storeOperands_within u _ _) _ f ea (fun _ _ hu => hu) hrest

theorem State.pendingIs.fpLoadForm (h : s.pendingIs d) {i : Instr} {f : AlignForm} {ea : Word} {n : Nat}
    {single : Bool} {frD : Reg} {value : List Byte → Dword} {rest : State → State}
    (hrest : ∀ u, u.pendingIs d → (rest u).pendingIs d) :
    LeadsToPending d (s.fpLoadForm i f ea n (fun b t => t.putFpr single frD (value b)) rest) :=
  h.needFp (LeadsToPending.ite (h.finish (s.loadOperands_within _ _) _ f ea (fun _ _ hu => hu) hrest)
    (h.takeAlignment _ f ea).leads)

theorem State.pendingIs.fpStoreForm (h : s.pendingIs d) {i : Instr} {f : AlignForm} {ea : Word} {bs : List Byte}
    {rest : State → State} (hrest : ∀ u, u.pendingIs d → (rest u).pendingIs d) :
    LeadsToPending d (s.fpStoreForm i f ea bs rest) :=
  h.needFp (LeadsToPending.ite (h.storeForm hrest) (h.takeAlignment _ f ea).leads)

theorem State.pendingIs.writeRegs (l : List Word) : ∀ {s : State}, s.pendingIs d → ∀ r : Reg,
    (s.writeRegs r l).pendingIs d := by
  induction l with
  | nil => exact fun h _ => h
  | cons v t ih => exact fun h r => ih (h.writeGpr r v) (r + 1)

theorem State.pendingIs.undefineRegs (k : Nat) : ∀ {s : State}, s.pendingIs d → ∀ r : Reg,
    (s.undefineRegs r k).pendingIs d := by
  induction k with
  | zero => exact fun h _ => h
  | succ k ih => exact fun h r => ih (h.undefineGpr r) (r + 1)

theorem State.pendingIs.drawUpTo (h : s.pendingIs d) (k : Nat) : (s.drawUpTo k).2.pendingIs d := h

theorem State.pendingIs.loadRegs (h : s.pendingIs d) (i : Instr) (rD : Reg) (ea : Word) (n : Nat) (bad rc : Bool) :
    LeadsToPending d (s.loadRegs i rD ea n bad rc) :=
  h.finishWith (s.loadOperands_within _ _) _ _ ea
    (fun _ _ hu => State.pendingIs.ite (State.pendingIs.undefineRegs _ hu rD) (State.pendingIs.writeRegs _ hu rD))
    (fun _ hu => hu.badRecordBit rc) fun _ _ hu => State.pendingIs.writeRegs _ (hu.drawUpTo _) rD

theorem State.pendingIs.storeRegs (h : s.pendingIs d) (i : Instr) (f : AlignForm) (rS : Reg) (ea : Word) (n : Nat)
    (rc : Bool) : LeadsToPending d (s.storeRegs i f rS ea n rc) :=
  h.finish (s.storeOperands_within _ _ _) _ f ea (fun _ _ hu => hu) fun _ hu => hu.badRecordBit rc

/-- An alignment test before an access. -/
theorem State.pendingIs.orAlignment (h : s.pendingIs d) {c : Prop} [Decidable c] {w : Word} {f : AlignForm} {ea : Word}
    {k : Result} (hk : LeadsToPending d k) : LeadsToPending d (if c then .next (s.takeAlignment w f ea) else k) :=
  LeadsToPending.ite (h.takeAlignment w f ea).leads hk

theorem State.pendingIs.execLswx (h : s.pendingIs d) (rD rA rB : Reg) (rc : Bool) :
    LeadsToPending d (execLswx rD rA rB rc s) :=
  h.orAlignment (LeadsToPending.ite ((h.undefineGpr rD).badRecordBit rc).advance.leads (h.loadRegs _ _ _ _ _ _))

/-! ### Storage control -/

theorem State.pendingIs.withAddress (h : s.pendingIs d) {i : Instr} {f : AlignForm} {u : Use} {ea : Word}
    {direct : State → Result} {k : Word → BitVec 4 → State → Result}
    (hd : ∀ t, t.pendingIs d → LeadsToPending d (direct t))
    (hk : ∀ pa w t, t.pendingIs d → LeadsToPending d (k pa w t)) :
    LeadsToPending d (s.withAddress i f u ea direct k) := by
  have translated := h.storage (s.storageStep_translate u ea)
  unfold State.withAddress
  split <;> rename_i heq <;> rw [heq] at translated
  · exact hk _ _ _ translated
  · exact hd _ translated
  · exact translated.finish (failAcc_within _ u ea [] _) _ f ea (fun _ _ hu => hu) fun _ hu => hu

theorem State.pendingIs.withResv (h : s.pendingIs d) (b : Bool) (a : BitVec 27) :
    State.pendingIs { s with resv := b, resvAddr := a } d := h

theorem State.pendingIs.execLwarx (h : s.pendingIs d) (rD rA rB : Reg) (rc : Bool) :
    LeadsToPending d (execLwarx rD rA rB rc s) := by
  refine LeadsToPending.ite (h.withAddress (fun u hu => (hu.takeDsi _ _).leads) fun pa w u hu => ?_)
    (h.takeAlignment _ _ _).leads
  have loaded := (hu.storage (u.storageStep_loadReserved w pa)).withResv true (blockOf pa)
  exact ((loaded.writeGpr rD _).badRecordBit rc).advance.leads

theorem State.pendingIs.execStwcxRec (h : s.pendingIs d) (rS rA rB : Reg) (rc : Bool) :
    LeadsToPending d (execStwcxRec rS rA rB rc s) := by
  refine LeadsToPending.ite (h.withAddress (fun u hu => (hu.takeDsi _ _).leads) fun pa w u hu => ?_)
    (h.takeAlignment _ _ _).leads
  have stored (bs : List Byte) := (hu.storage (u.storageStep_storePart w true pa bs)).withResv false
  exact (((State.pendingIs.ite (stored _ _) hu).setCrField 0 _).badRecordBit !rc).advance.leads

theorem State.pendingIs.broadcast (h : s.pendingIs d) (k : BusKind) (a : Word) : (s.broadcast k a).pendingIs d := h

theorem State.pendingIs.touchAddress (h : s.pendingIs d) (ea : Word) : LeadsToPending d (s.touchAddress ea) := by
  have touched {pa : Word} {w : BitVec 4} {u : State} (hx : s.translateTouch ea = some (pa, w, u)) : u.pendingIs d := by
    rw [State.translateTouch_state hx]
    exact h
  unfold State.touchAddress
  refine LeadsToPending.ite (leadsToPending_refused _) (LeadsToPending.ite (leadsToPending_refused _) ?_)
  split
  · exact h.advance.leads
  · rename_i pa w u heq
    exact (State.pendingIs.ite ((touched heq).storage (u.storageStep_blockForLoad w .read pa pa 0)) h).advance.leads

theorem State.pendingIs.onBlock (h : s.pendingIs d) {i : Instr} {u : Use} {ea : Word}
    {k : BitVec 4 → Word → State → State} (hk : ∀ w pa t, t.pendingIs d → (k w pa t).pendingIs d) :
    LeadsToPending d (s.onBlock i u ea k) :=
  h.withAddress (fun _ ht => ht.advance.leads) fun pa w t ht => (hk w pa t ht).advance.leads

theorem State.pendingIs.logBlockOp (h : s.pendingIs d) (k : BusKind) (w : BitVec 4) (pa : Word) :
    (s.logBlockOp k w pa).pendingIs d := h

theorem State.pendingIs.putD (h : s.pendingIs d) (l : DLine) : (s.putD l).pendingIs d := h

theorem State.pendingIs.writeBack (h : s.pendingIs d) (l : DLine) : (s.writeBack l).pendingIs d :=
  h.storage (s.storageStep_writeBack l)

theorem State.pendingIs.withDcache (h : s.pendingIs d) (c : List DLine) :
    State.pendingIs { s with dcache := c } d := h

theorem State.pendingIs.zeroBlock (h : s.pendingIs d) (w : BitVec 4) (pa : Word) : (s.zeroBlock w pa).pendingIs d := by
  unfold State.zeroBlock
  dsimp only
  split
  · exact (State.pendingIs.ite (h.logBlockOp _ _ _) h).putD _
  · exact ((h.storage (s.storageStep_evictD _)).logBlockOp _ _ _).putD _

theorem State.pendingIs.storeBlock (h : s.pendingIs d) (w : BitVec 4) (pa : Word) :
    (s.storeBlock w pa).pendingIs d := by
  unfold State.storeBlock
  split
  · exact State.pendingIs.ite ((h.writeBack _).putD _) (h.logBlockOp _ _ _)
  · exact h.logBlockOp _ _ _

theorem State.pendingIs.flushBlock (h : s.pendingIs d) (w : BitVec 4) (pa : Word) :
    (s.flushBlock w pa).pendingIs d := by
  unfold State.flushBlock
  split
  · exact (State.pendingIs.ite (h.writeBack _) (h.logBlockOp _ _ _)).withDcache _
  · exact h.logBlockOp _ _ _

theorem State.pendingIs.invalidateI (h : s.pendingIs d) (b : BitVec 27) : (s.invalidateI b).pendingIs d :=
  State.pendingIs.ite h h

theorem State.pendingIs.icbiBlock (h : s.pendingIs d) (w : BitVec 4) (pa : Word) : (s.icbiBlock w pa).pendingIs d :=
  (h.invalidateI (blockOf pa)).storage (State.storageStep_logTenure _ _ _ _ _)

theorem State.pendingIs.discardBlock (h : s.pendingIs d) (w : BitVec 4) (pa : Word) :
    (s.discardBlock w pa).pendingIs d :=
  State.pendingIs.ite ((h.logBlockOp .kill w pa).withDcache _) (h.logBlockOp .kill w pa)

theorem State.pendingIs.external (h : s.pendingIs d) {i : Instr} {u : Use} {ea : Word} {k : Word → State → Result}
    (hk : ∀ pa t, t.pendingIs d → LeadsToPending d (k pa t)) : LeadsToPending d (s.external i u ea k) :=
  h.orAlignment (LeadsToPending.ite (h.takeDsi _ _).leads
    (h.withAddress (fun _ ht => (ht.takeDsi _ _).leads) fun pa _ t ht => hk pa t ht))

theorem State.pendingIs.invalidateTlb (h : s.pendingIs d) (i : BitVec 6) : (s.invalidateTlb i).pendingIs d := h

theorem State.pendingIs.drawWord (h : s.pendingIs d) : s.drawWord.2.pendingIs d := h

theorem State.pendingIs.logBus (h : s.pendingIs d) (op : BusOp) : (s.logBus op).pendingIs d := h

/-! ### Special registers -/

/-- No special register but DEC has to do with the latches. -/
theorem State.writeSpr_latches (s : State) {n : Nat} (hn : n ≠ 22) (v : Word) :
    (s.writeSpr n v).latches = s.latches := by
  unfold State.writeSpr
  split
  case h_6 => exact absurd rfl hn
  case h_18 => unfold State.writeMmcr0; dsimp only; split <;> rfl
  case h_31 => split <;> rfl
  all_goals rfl

theorem State.pendingIs.writeSpr (h : s.pendingIs d) {n : Nat} (hn : n ≠ 22) (v : Word) :
    (s.writeSpr n v).pendingIs d := by
  unfold State.pendingIs
  rw [State.writeSpr_latches s hn]
  exact h

theorem State.pendingIs.writeDec (h : s.pendingIs d) (v : Word) :
    (s.writeDec v).pendingIs (d || (!beBit s.dec 0 && beBit v 0)) := congrArg (· || _) h

theorem State.pendingIs.readSpr (h : s.pendingIs d) (n : Nat) : (s.readSpr n).2.pendingIs d := by
  unfold State.readSpr
  split
  case h_19 => split <;> exact h
  case h_23 => split <;> exact h
  all_goals exact h

theorem State.pendingIs.checkSpr (h : s.pendingIs d) (spr : BitVec 10) (defined : Bool) {k : Result}
    (hk : LeadsToPending d k) : LeadsToPending d (s.checkSpr spr defined k) :=
  LeadsToPending.ite (h.takeException ..).leads (LeadsToPending.ite hk (h.takeException ..).leads)

theorem State.pendingIs.execMtspr (h : s.pendingIs d) (rS : Reg) {n : BitVec 10} (hn : n ≠ 22) (rc : Bool) :
    LeadsToPending d (execMtspr rS n rc s) := by
  have other : n.toNat ≠ 22 := fun e => hn (BitVec.eq_of_toNat_eq e)
  exact h.checkSpr _ _ ((h.writeSpr other _).badRecordBit rc).advance.leads

theorem State.pendingIs.execMftb (h : s.pendingIs d) (rD : Reg) (n : BitVec 10) :
    LeadsToPending d (execMftb rD n s) :=
  LeadsToPending.ite (h.writeGpr _ _).advance.leads
    (LeadsToPending.ite (h.writeGpr _ _).advance.leads (h.takeException ..).leads)

theorem State.pendingIs.execBcctr (h : s.pendingIs d) (bo bi : BitVec 5) (lk : Bool) :
    LeadsToPending d (execBcctr bo bi lk s) :=
  LeadsToPending.ite (h.branchTo bo bi lk _) (h.drawWord.branchTo bo bi lk _)

theorem State.pendingIs.getSr (h : s.pendingIs d) (rD : Reg) (n : BitVec 4) : LeadsToPending d (s.getSr rD n) :=
  h.supervisorOnly (h.writeGpr _ _).advance.leads

theorem State.pendingIs.putSr (h : s.pendingIs d) (n : BitVec 4) (v : Word) : LeadsToPending d (s.putSr n v) :=
  h.supervisorOnly (State.pendingIs.leads (s := (s.writeSr n v).advance) h)

end
end Sys2Proof.Machine
end

section
/-! SUPPORT. Proofs/Ticks.lean: counting time (O55). -/

namespace Sys2Proof.Machine

section
variable (s : State) (k : Nat)

/-- The condition is set exactly when DEC passes from 0 to 0xFFFFFFFF (R804). -/
theorem State.tick_decPending :
    (s.tick k).latches.decPending = (s.latches.decPending || decide (s.dec.toNat < k)) := rfl

/-- Bit 0 of DEC goes from 0 to 1 at the step from 0, and only there. -/
theorem beBit_zero_sub_one (w : Word) : (!beBit w 0 && beBit (w - 1) 0) = decide (w.toNat < 1) := by
  have sign (x : Word) : beBit x 0 = decide (2147483648 ≤ x.toNat) := BitVec.msb_eq_decide x
  have bound := w.isLt
  have less : (w - 1).toNat = (w.toNat + 4294967295) % 4294967296 := by
    rw [BitVec.toNat_sub, Nat.add_comm]
    rfl
  rw [sign, sign, less]
  by_cases zero : w.toNat = 0
  · rw [zero]
    rfl
  · have : ¬w.toNat < 1 := by omega
    simp only [this, decide_false, Bool.and_eq_false_imp, Bool.not_eq_true', decide_eq_false_iff_not]
    omega

/-- The time base counts the ticks of two stretches one after the other (R800). -/
theorem State.tick_succ_tb : (s.tick (k + 1)).tb = ((s.tick k).tick 1).tb := by
  have counted (n : Nat) : s.counted n = if s.pins.tben then n else 0 := rfl
  change s.tb + BitVec.ofNat 64 (s.counted (k + 1)) =
    s.tb + BitVec.ofNat 64 (s.counted k) + BitVec.ofNat 64 (s.counted 1)
  rw [BitVec.add_assoc, ← BitVec.ofNat_add, counted, counted, counted]
  cases s.pins.tben <;> rfl

/-- So does the decrementer (R804). -/
theorem State.tick_succ_dec : (s.tick (k + 1)).dec = ((s.tick k).tick 1).dec := by
  change s.dec - BitVec.ofNat 32 (k + 1) = s.dec - BitVec.ofNat 32 k - BitVec.ofNat 32 1
  rw [BitVec.ofNat_add, BitVec.sub_sub]

/-- DEC passes from 0 within `k + 1` ticks if it does within `k`, or the last one finds it at 0. -/
theorem State.tick_succ_decPending :
    (s.tick (k + 1)).latches.decPending = ((s.tick k).tick 1).latches.decPending := by
  have passes : decide (s.dec.toNat < k + 1) =
      (decide (s.dec.toNat < k) || decide ((s.dec - BitVec.ofNat 32 k).toNat < 1)) := by
    have bound := s.dec.isLt
    rw [← Bool.decide_or, decide_eq_decide, BitVec.toNat_sub, BitVec.toNat_ofNat]
    omega
  rw [State.tick_decPending, State.tick_decPending, State.tick_decPending, passes, Bool.or_assoc]
  rfl

/-- Ticks counted at once are ticks counted one by one. -/
theorem State.tick_succ : s.tick (k + 1) = (s.tick k).tick 1 := by
  have tb := s.tick_succ_tb k
  have dec := s.tick_succ_dec k
  have pending := s.tick_succ_decPending k
  have fields (t : State) (n : Nat) : t.tick n = { t with
    tb := (t.tick n).tb, dec := (t.tick n).dec
    latches := { t.latches with decPending := (t.tick n).latches.decPending } } := rfl
  rw [fields s (k + 1), tb, dec, pending]
  rfl

end

/-- Settles O55: each counter adds up, and the condition is set by the tick that finds DEC at 0. -/
theorem ticksAreSingleTicks : Obligations.TicksAreSingleTicks := by
  intro s k
  refine ⟨s.tick_succ k, ?_, rfl, ?_, fun pending => ?_⟩
  · change s.tb + BitVec.ofNat 64 (if s.pins.tben then 1 else 0) = _
    cases s.pins.tben
    · exact BitVec.add_zero s.tb
    · rfl
  · rw [State.tick_decPending, ← beBit_zero_sub_one]
    rfl
  · rw [State.tick_decPending, pending, Bool.true_or]

end Sys2Proof.Machine
end

section
/-! SUPPORT. Proofs/BoundaryOrder.lean: what a boundary takes, in its order (O56). -/

namespace Sys2Proof.Machine

section
variable {s t : State}

/-! ### The boundary (R789) -/

/-- The state after the boundary's input (92 D6). -/
def State.afterInput (s : State) : State := s.takeInput.2.applyInput s.takeInput.1

theorem State.takeInput_latches (s : State) : s.takeInput.2.latches = s.latches := by
  unfold State.takeInput
  split <;> rfl

/-- With no hard reset, outside the checkstop state, a boundary applies its input and then serves what is pending. -/
theorem State.boundary_running (reset : s.takeInput.1.hreset = false) (running : s.latches.checkstop = false) :
    s.boundary = if s.takeInput.1.ckstp then (s.afterInput.enterCheckstop, true)
      else match s.afterInput.asynchronous with
        | some t => (t, true)
        | none =>
          if s.afterInput.msrPOW then
            ({ s.afterInput with latches := { s.afterInput.latches with halted := true } }, true)
          else (s.afterInput, false) := by
  have go : s.takeInput.2.latches.checkstop = false := by rw [State.takeInput_latches, running]
  unfold State.boundary
  dsimp only
  rw [reset, go]
  rfl

section
variable (reset : s.takeInput.1.hreset = false) (running : s.latches.checkstop = false)
include reset running

theorem State.boundary_ckstp (stop : s.takeInput.1.ckstp = true) :
    s.boundary = (s.afterInput.enterCheckstop, true) := by
  rw [State.boundary_running reset running, if_pos stop]

/-- An exception is the whole step. -/
theorem State.boundary_some (stop : s.takeInput.1.ckstp = false) (h : s.afterInput.asynchronous = some t) :
    s.boundary = (t, true) := by
  rw [State.boundary_running reset running, stop, h]
  rfl

/-- A boundary that takes no exception halts the processor if MSR[POW] = 1 (R861), and else goes on. -/
theorem State.boundary_none (stop : s.takeInput.1.ckstp = false) (h : s.afterInput.asynchronous = none) :
    s.boundary = if s.afterInput.msrPOW then
        ({ s.afterInput with latches := { s.afterInput.latches with halted := true } }, true)
      else (s.afterInput, false) := by
  rw [State.boundary_running reset running, stop, h]
  rfl

end

/-! ### The exceptions in their order (R781, R789) -/

theorem State.asynchronous_sreset (h : s.latches.sreset = true) : s.asynchronous =
    some ({ s with latches := { s.latches with sreset := false } }.takeException 0x00100 s.pc 0) := if_pos h

section
variable (reset : s.latches.sreset = false)
include reset

theorem State.asynchronous_mc (cause : s.latches.mc ≠ McCause.none) : s.asynchronous =
    if s.msrME then some ({ s with latches := { s.latches with mc := McCause.none } }.takeMachineCheck s.latches.mc)
    else some s.enterCheckstop := by
  rw [State.asynchronous, reset, if_neg Bool.false_ne_true, if_pos cause]

/-- Without a reset and a machine check MSR[EE] decides. -/
theorem State.asynchronous_interrupts (cause : s.latches.mc = McCause.none) : s.asynchronous =
    if s.msrEE then
      (if s.pins.smi then some (s.takeException 0x01400 s.pc 0)
      else if s.pins.int then some (s.takeException 0x00500 s.pc 0)
      else if s.pm.pending then some ({ s with pm := { s.pm with pending := false } }.takeException 0x00F00 s.pc 0)
      else if s.latches.decPending then
        some ({ s with latches := { s.latches with decPending := false } }.takeException 0x00900 s.pc 0)
      else none)
    else none := by
  rw [State.asynchronous, reset, if_neg Bool.false_ne_true, if_neg (not_not_intro cause)]

end

/-- The machine check is the one of R748. -/
theorem State.tookMachineCheck_takeMachineCheck (s : State) :
    s.tookMachineCheck ({ s with latches := { s.latches with mc := McCause.none } }.takeMachineCheck s.latches.mc)
      s.latches.mc := by
  refine ⟨s.drawWord.1, ?_⟩
  simp only [State.takeMachineCheck, State.enter, State.drawWord, State.vector, alignWord, wordOfBool, BitVec.or_assoc,
    beq_iff_eq]
  rfl

end

/-- Settles O56: the boundary takes what the test of the asynchronous exceptions answers first. -/
theorem interruptsByPriority : Obligations.InterruptsByPriority := by
  intro s x u takes stops takesNone reset running
  have none (free : x.ckstp = false) (h : u.asynchronous = none) : takesNone := State.boundary_none reset running free h
  have took {before : State} {vector : Word} (free : x.ckstp = false)
      (h : u.asynchronous = some (before.takeException vector u.pc 0)) : takes before vector :=
    ⟨_, State.boundary_some reset running free h, State.tookException_takeException ..⟩
  refine ⟨State.boundary_ckstp reset running, fun free => ⟨fun sreset => took free (State.asynchronous_sreset sreset),
    fun sreset cause => ?_, fun sreset cause => ?_⟩⟩
  · have check := State.asynchronous_mc sreset cause
    refine ⟨fun me => ?_, fun me => ⟨_, ?_, u.tookMachineCheck_takeMachineCheck⟩⟩
    · rw [me] at check
      exact State.boundary_some reset running free check
    · rw [me] at check
      exact State.boundary_some reset running free check
  · have chain := State.asynchronous_interrupts sreset cause
    refine ⟨fun ee => ?_, fun ee => ⟨fun smi => ?_, fun smi int => ?_, fun smi int pm => ?_,
      fun smi int pm => ⟨fun dec => ?_, fun dec => ?_⟩⟩⟩
    · exact none free (by rw [chain, ee]; rfl)
    · exact took free (by rw [chain, ee, smi]; rfl)
    · exact took free (by rw [chain, ee, smi, int]; rfl)
    · exact took free (by rw [chain, ee, smi, int, pm]; rfl)
    · exact none free (by rw [chain, ee, smi, int, pm, dec]; rfl)
    · exact took free (by rw [chain, ee, smi, int, pm, dec]; rfl)

end Sys2Proof.Machine
end

section
/-! SUPPORT. Proofs/DecrementerLatched.lean: what sets and clears the decrementer condition (O54). -/

namespace Sys2Proof.Machine

section
variable {s t : State} {d : Bool}

/-! ### Every instruction -/

/-- No instruction but a `mtspr` to DEC changes the condition: each form is one of the shared operations. -/
theorem State.pendingIs.exec_of_not_dec (h : s.pendingIs d) {i : Instr} (other : ∀ rS rc, i ≠ .mtspr rS 22 rc) :
    LeadsToPending d (exec i s) := by
  cases i with
  | addi | addis | mulli | mulhw | mulhwu | andiRec | andisRec | ori | oris | xori | xoris | and | or | xor | nand |
  nor | eqv | andc | orc | extsb | extsh | cntlzw | rlwinm | rlwnm | rlwimi | slw | srw =>
    exact h.putResult ..
  | addic | addicRec | subfic | add | subf | addc | subfc | adde | subfe | addme | subfme | addze | subfze =>
    exact h.putSum ..
  | neg | mullw => exact (h.overflowIf _ _).putResult ..
  | divw | divwu => exact LeadsToPending.ite (h.putUndefinedQuotient ..) (h.putQuotient ..)
  | cmpi | cmp | cmpli | cmpl => exact h.putCompare ..
  | srawi | sraw => exact h.putAlgebraic ..
  | fadd | fsub | fmul | fdiv | fres | frsqrte | fmadd | fmsub | fnmadd | fnmsub | frsp =>
    exact h.needFp (h.putFloat ..)
  | fadds | fsubs | fmuls | fdivs | fmadds | fmsubs | fnmadds | fnmsubs => exact h.needFp (h.putSingle ..)
  | fsel | fmr | fneg | fabs | fnabs => exact h.needFp (h.putMove ..)
  | fctiw | fctiwz => exact h.needFp (h.putInt ..)
  | fcmpu | fcmpo => exact h.needFp (h.putFloatCompare ..)
  | mffs => exact h.needFp (h.drawWord.putMove ..)
  | mcrfs => exact h.needFp (((h.setCrField _ _).withFpscr _).fpDone false)
  | mtfsfi | mtfsf | mtfsb0 => exact h.needFp (h.putFpscr ..)
  | mtfsb1 => exact h.needFp ((h.withFpscr _).fpDone _)
  | lbz | lhz | lha | lwz => exact h.loadGpr fun _ hu => hu
  | lbzx | lhzx | lhax | lwzx => exact h.loadGpr fun _ hu => hu.badRecordBit _
  | lhbrx | lwbrx => exact h.loadGpr (value := fun b => wordOf b.reverse) fun _ hu => hu.badRecordBit _
  | lbzu | lhzu | lhau | lwzu => exact h.loadGpr fun _ hu => hu.updateLoad ..
  | lbzux | lhzux | lhaux | lwzux => exact h.loadGpr fun _ hu => (hu.updateLoad ..).badRecordBit _
  | stb | sth | stw => exact h.storeForm fun _ hu => hu
  | stbx | sthx | stwx | sthbrx | stwbrx => exact h.storeForm fun _ hu => hu.badRecordBit _
  | stbu | sthu | stwu => exact h.storeForm fun _ hu => hu.updateBase ..
  | stbux | sthux | stwux => exact h.storeForm fun _ hu => (hu.updateBase ..).badRecordBit _
  | lmw | lswi => exact h.orAlignment (h.loadRegs ..)
  | stmw | stswi | stswx => exact h.orAlignment (h.storeRegs ..)
  | lswx => exact h.execLswx ..
  | lfs | lfd => exact h.fpLoadForm fun _ hu => hu
  | lfsx | lfdx => exact h.fpLoadForm fun _ hu => hu.badRecordBit _
  | lfsu | lfdu => exact h.fpLoadForm fun _ hu => hu.updateBase ..
  | lfsux | lfdux => exact h.fpLoadForm fun _ hu => (hu.updateBase ..).badRecordBit _
  | stfs | stfd => exact h.fpStoreForm fun _ hu => hu
  | stfsx | stfdx => exact h.fpStoreForm fun _ hu => hu.badRecordBit _
  | stfsu | stfdu => exact h.fpStoreForm fun _ hu => hu.updateBase ..
  | stfsux | stfdux => exact h.fpStoreForm fun _ hu => (hu.updateBase ..).badRecordBit _
  | stfiwx => exact h.fpStoreForm fun _ hu => (State.pendingIs.ite hu.drawWord hu).badRecordBit _
  | b => exact h.execB ..
  | bc | bclr => exact h.branchTo ..
  | bcctr => exact h.execBcctr ..
  | crand | cror | crxor | crnand | crnor | creqv | crandc | crorc => exact h.putCrBit ..
  | mcrf => exact (h.setCrField _ _).advance.leads
  | twi | tw => exact h.trapIf _
  | sc => exact (h.takeException ..).leads
  | rfi => exact h.supervisorOnly (h.withMsrPc _ _).recheckFp.leads
  | mtmsr => exact h.supervisorOnly (h.withMsrPc _ _).recheckFp.leads
  | mfmsr => exact h.supervisorOnly (h.writeGpr _ _).advance.leads
  | mtcrf => exact (h.withCr _).advance.leads
  | mcrxr => exact ((h.setCrField _ _).withXer _).advance.leads
  | mfcr => exact (h.writeGpr _ _).advance.leads
  | mtspr rS n rc => exact h.execMtspr rS (fun e => other rS rc (e ▸ rfl)) rc
  | mfspr => exact h.checkSpr _ _ (((h.readSpr _).writeGpr _ _).badRecordBit _).advance.leads
  | mftb => exact h.execMftb ..
  | lwarx => exact h.execLwarx ..
  | stwcxRec => exact h.execStwcxRec ..
  | sync => exact ((h.broadcast .sync 0).badRecordBit _).advance.leads
  | eieio => exact (h.broadcast .eieio 0).advance.leads
  | isync => exact h.advance.leads
  | dcbt | dcbtst => exact h.touchAddress _
  | dcbz => exact h.onBlock fun _ _ _ hu => hu.zeroBlock _ _
  | dcbst => exact h.onBlock fun _ _ _ hu => hu.storeBlock _ _
  | dcbf => exact h.onBlock fun _ _ _ hu => hu.flushBlock _ _
  | icbi => exact h.onBlock fun _ _ _ hu => hu.icbiBlock _ _
  | dcbi => exact h.supervisorOnly (h.onBlock fun _ _ _ hu => hu.discardBlock _ _)
  | eciwx => exact h.external fun _ _ hu => ((hu.drawWord.logBus _).writeGpr _ _).advance.leads
  | ecowx => exact h.external fun _ _ hu => (hu.logBus _).advance.leads
  | mtsr | mtsrin => exact h.putSr ..
  | mfsr | mfsrin => exact h.getSr ..
  | tlbie => exact h.supervisorOnly ((h.invalidateTlb _).broadcast .tlbInvalidate _).advance.leads
  | tlbsync => exact h.supervisorOnly (h.broadcast .tlbSync 0).advance.leads

/-- A `mtspr` to DEC is a privileged instruction in user mode, and in supervisor mode the write of R805. -/
theorem State.pendingIs.execMtsprDec (h : s.pendingIs d) {rS : Reg} {rc : Bool}
    (run : exec (.mtspr rS 22 rc) s = .next t) :
    t.pendingIs d ∨ t.pendingIs (d || (!beBit s.dec 0 && beBit (s.readGpr rS) 0)) := by
  have written := ((h.writeDec (s.readGpr rS)).badRecordBit rc).advance
  have meaning : exec (.mtspr rS 22 rc) s =
      if s.msrPR then .next s.takePrivileged
      else .next ((s.writeDec (s.readGpr rS)).badRecordBit rc).advance := by
    change (if s.msrPR && true then _ else _) = _
    rw [Bool.and_true]
    rfl
  rw [meaning] at run
  split at run <;> cases run
  · exact .inl (h.takeException ..)
  · exact .inr written

/-- Every instruction keeps the condition pending (R804). -/
theorem State.pendingIs.exec_true (h : s.pendingIs true) (i : Instr) : LeadsToPending true (exec i s) := by
  by_cases dec : ∃ rS rc, i = .mtspr rS 22 rc
  · obtain ⟨rS, rc, rfl⟩ := dec
    exact ⟨fun t run => (h.execMtsprDec run).elim id id⟩
  · exact h.exec_of_not_dec fun rS rc e => dec ⟨rS, rc, e⟩

/-- Only a `mtspr` to DEC that changes bit 0 from 0 to 1 sets the condition (R805). -/
theorem exec_sets_decPending {i : Instr} (run : exec i s = .next t) (clear : s.pendingIs false)
    (raised : t.pendingIs true) :
    ∃ rS rc, i = .mtspr rS 22 rc ∧ beBit s.dec 0 = false ∧ beBit (s.readGpr rS) 0 = true := by
  have notClear (h : t.pendingIs false) : False := Bool.false_ne_true (h.symm.trans raised)
  by_cases dec : ∃ rS rc, i = .mtspr rS 22 rc
  · obtain ⟨rS, rc, rfl⟩ := dec
    obtain kept | written := clear.execMtsprDec run
    · exact (notClear kept).elim
    · have change : (!beBit s.dec 0 && beBit (s.readGpr rS) 0) = true := written.symm.trans raised
      rw [Bool.and_eq_true, Bool.not_eq_true'] at change
      exact ⟨rS, rc, rfl, change⟩
  · exact (notClear ((clear.exec_of_not_dec fun rS rc e => dec ⟨rS, rc, e⟩).pending t run)).elim

/-! ### The instruction of a step -/

theorem State.pendingIs.withLastIa (h : s.pendingIs d) (a : Word) : State.pendingIs { s with lastIa := a } d := h

theorem State.pendingIs.noteMoved (h : t.pendingIs d) (s : State) (i : Instr) : (t.noteMoved s i).pendingIs d := h

theorem State.pendingIs.complete (h : t.pendingIs d) (s : State) (i : Instr) : (t.complete s i).pendingIs d :=
  State.pendingIs.ite (State.pendingIs.ite (h.withLastIa s.pc) h)
    (State.pendingIs.ite ((h.withLastIa s.pc).takeException ..) (h.withLastIa s.pc))

theorem State.pendingIs.runWord (h : s.pendingIs true) (w : Word) : LeadsToPending true (s.runWord w) := by
  have started : State.pendingIs { s with took := false } true := h
  unfold State.runWord
  split
  · exact (h.takeException ..).leads
  · refine ⟨fun t ht => ?_⟩
    obtain ⟨u, hu, rfl⟩ := finishInstr_next.1 ht
    exact (((started.exec_true _).pending u hu).noteMoved s _).complete s _

theorem State.pendingIs.withIcache (h : s.pendingIs d) (c : List ILine) (l : List BusOp) :
    State.pendingIs { s with icache := c, busLog := l } d := h

theorem State.pendingIs.fetchPhys (h : s.pendingIs d) (wimg : BitVec 4) (pa : Word) :
    (s.fetchPhys wimg pa).2.pendingIs d := by
  have read := h.storage (s.storageStep_readBlock (blockOf pa))
  unfold State.fetchPhys
  dsimp only
  split
  · exact read.logBus _
  split
  · exact h.withIcache _ _
  split
  · exact read.logBus _
  · exact read.withIcache _ _

theorem State.pendingIs.fetchWord (h : s.pendingIs true) (pa : Word) (wimg : BitVec 4) :
    LeadsToPending true (s.fetchWord pa wimg) := by
  have fetched := h.fetchPhys wimg (s.mungeWord pa)
  exact LeadsToPending.ite (h.takeException ..).leads (LeadsToPending.ite fetched.leads (fetched.runWord _))

/-- Fetching and running an instruction keeps the condition pending. -/
theorem State.pendingIs.fetchAndRun (h : s.pendingIs true) : LeadsToPending true s.fetchAndRun := by
  have translated := h.storage (s.storageStep_translate .fetch s.pc)
  have isi (info : Word) {u : State} (hu : u.pendingIs true) : LeadsToPending true (.next (u.takeIsi info)) :=
    (hu.takeException ..).leads
  unfold State.fetchAndRun
  split <;> rename_i heq <;> rw [heq] at translated
  case h_1 => exact translated.fetchWord _ _
  case h_3 => exact leadsToPending_refused _
  all_goals exact isi _ translated

/-! ### The boundary of a step -/

theorem State.pendingIs.otherMasters (h : s.pendingIs d) (l : List Snoop) :
    (l.foldl State.otherMaster s).pendingIs d := by
  have only := State.snoopStep_snoops l s
  unfold State.snoopStep at only
  rw [only]
  exact h

/-- The input as it arrives, before it has any effect but on the pins. -/
theorem State.pendingIs.arrived (h : s.pendingIs d) :
    State.pendingIs { s.takeInput.2 with pins := s.takeInput.1.pins } d :=
  (congrArg Latches.decPending s.takeInput_latches).trans h

theorem State.pendingIs.pmBoundary (h : s.pendingIs d) (x : Input) (n : Nat) : (s.pmBoundary x n).pendingIs d := by
  obtain ⟨only, -⟩ := State.pmStep_pmBoundary s x n
  rw [only]
  exact h

theorem State.pendingIs.tick (h : s.pendingIs true) (k : Nat) : (s.tick k).pendingIs true := congrArg (· || _) h

/-- The condition does not depend on the other latches. -/
theorem State.pendingIs.withOthers (h : s.pendingIs d) (tea sreset : Bool) (mc : McCause) :
    State.pendingIs { s with tea := tea, latches := { s.latches with sreset := sreset, mc := mc } } d := h

/-- A boundary's input leaves the condition pending. -/
theorem State.pendingIs.afterInput (h : s.pendingIs true) : s.afterInput.pendingIs true :=
  (((h.arrived.otherMasters _).tick _).pmBoundary _ _).withOthers _ _ _

/-- Of the asynchronous exceptions only the decrementer's clears the condition (R771). -/
theorem State.pendingIs.asynchronous (h : s.pendingIs true) (taken : s.asynchronous = some t) : t.pendingIs true ∨
    t = { s with latches := { s.latches with decPending := false } }.takeException 0x00900 s.pc 0 := by
  obtain ⟨-, rfl⟩ | ⟨-, -, rfl⟩ | ⟨-, -, rfl⟩ | ⟨-, -, rfl⟩ | ⟨-, -, rfl⟩ | ⟨-, -, rfl⟩ | ⟨-, -, dec⟩ :=
    State.asynchronous_cases taken
  · exact .inl (State.pendingIs.takeException (s := { s with latches := { s.latches with sreset := false } }) h ..)
  · exact .inl (State.pendingIs.takeMachineCheck (s := { s with latches := { s.latches with mc := McCause.none } }) h _)
  · exact .inl h
  · exact .inl (h.takeException ..)
  · exact .inl (h.takeException ..)
  · exact .inl (State.pendingIs.takeException (s := { s with pm := { s.pm with pending := false } }) h ..)
  · exact .inr dec

/-- A boundary keeps the condition pending, unless it is a hard reset or takes the decrementer exception. -/
theorem State.pendingIs.boundary (h : s.pendingIs true) : s.takeInput.1.hreset = true ∨ s.boundary.1.pendingIs true ∨
    s.boundary = ({ s.afterInput with latches := { s.afterInput.latches with decPending := false } }.takeException
      0x00900 s.afterInput.pc 0, true) := by
  have applied := h.afterInput
  rcases reset : s.takeInput.1.hreset with _ | _
  case true => exact .inl rfl
  refine .inr ?_
  rcases running : s.latches.checkstop with _ | _
  case true =>
    have stopped : s.boundary = (s.takeInput.1.snoops.foldl State.otherMaster
        { s.takeInput.2 with pins := s.takeInput.1.pins }, true) := by
      unfold State.boundary
      dsimp only
      rw [reset, State.takeInput_latches, running]
      rfl
    rw [stopped]
    exact .inl (h.arrived.otherMasters _)
  rcases stop : s.takeInput.1.ckstp with _ | _
  case true =>
    rw [State.boundary_ckstp reset running stop]
    exact .inl applied
  cases taken : s.afterInput.asynchronous with
  | some t =>
    rw [State.boundary_some reset running stop taken]
    exact (applied.asynchronous taken).imp_right (congrArg (·, true))
  | none =>
    rw [State.boundary_none reset running stop taken]
    split <;> exact .inl applied

end

/-- Settles O54: the boundary clears the condition only in its exception and no instruction does; counting sets it by
its definition. -/
theorem decrementerConditionLatched : Obligations.DecrementerConditionLatched := by
  refine ⟨?_, fun i s t run => exec_sets_decPending run, fun s k clear => ?_⟩
  · intro s t pending run cleared u
    have gone : ¬t.pendingIs true := fun h => Bool.false_ne_true (cleared.symm.trans h)
    have was : s.pendingIs true := pending
    obtain reset | kept | taken := was.boundary
    · exact .inl reset
    · obtain ⟨-, rfl⟩ | ⟨-, -, runs⟩ := State.advanceMachine_cases run
      · exact absurd kept gone
      · exact absurd (kept.fetchAndRun.pending t runs) gone
    · obtain ⟨-, rfl⟩ | ⟨going, -, -⟩ := State.advanceMachine_cases run
      · rw [taken]
        exact .inr ⟨was.afterInput, State.tookException_takeException ..⟩
      · rw [taken] at going
        cases going
  · rw [State.tick_decPending, clear, Bool.false_or, decide_eq_true_iff]

end Sys2Proof.Machine
end

section
/-! SUPPORT. Proofs/TraceExceptions.lean: which completed instructions are traced, and what SRR1 says of them (O16). -/

namespace Sys2Proof.Machine

section
variable {s : State} {i : Instr}

/-! ### The kind of an instruction, by its opcodes (R774, R775 d) -/

/-- What the opcodes say of an instruction: it loads, it stores, it is `lswx` or `stswx`. -/
def storageKind (i : Instr) : Bool × Bool × Bool := (loadsStorage i, storesStorage i, stringIndexed i)

/-- The kind of a primary opcode other than 31. -/
def primaryKind (p : Nat) : Bool × Bool × Bool :=
  ([32, 33, 34, 35, 40, 41, 42, 43, 46, 48, 49, 50, 51].contains p,
    [36, 37, 38, 39, 44, 45, 47, 52, 53, 54, 55].contains p, false)

/-- The kind of an extended opcode of primary 31. -/
def extendedKind (x : Nat) : Bool × Bool × Bool :=
  ([20, 23, 55, 87, 119, 279, 310, 311, 343, 375, 533, 534, 535, 567, 597, 599, 631, 790].contains x,
    [150, 151, 183, 215, 247, 407, 438, 439, 661, 662, 663, 695, 725, 727, 759, 918, 983, 1014].contains x,
    [533, 661].contains x)

section
variable {k : Bool × Bool × Bool}

theorem storageKind_primary {p : Nat} (word : primary (encode i) = p) (h : p ≠ 31) (kind : primaryKind p = k) :
    storageKind i = k := by
  have other : (p == 31) = false := beq_false_of_ne h
  rw [← kind]
  simp only [storageKind, loadsStorage, storesStorage, stringIndexed, word, other, Bool.false_and, Bool.or_false]
  rfl

theorem storageKind_extended {x : Nat} (word : primary (encode i) = 31) (field : xo10 (encode i) = x)
    (kind : extendedKind x = k) : storageKind i = k := by
  rw [← kind]
  simp only [storageKind, loadsStorage, storesStorage, stringIndexed, word, field]
  rfl

variable {a b c : Reg} {r : Bool}

theorem storageKind_encX31 {xo : BitVec 10} (word : encode i = encX 31 a b c xo r)
    (kind : extendedKind xo.toNat = k) : storageKind i = k :=
  storageKind_extended (word ▸ primary_encX ..) (word ▸ xo10_encX ..) kind

theorem storageKind_encXFX {spr xo : BitVec 10} (word : encode i = encXFX 31 a spr xo r)
    (kind : extendedKind xo.toNat = k) : storageKind i = k :=
  storageKind_extended (word ▸ primary_encXFX ..) (word ▸ xo10_encXFX ..) kind

/-- The ten bits of an XO form hold OE beside its extended opcode (R272). -/
theorem storageKind_encXO {oe : Bool} {xo : BitVec 9} (word : encode i = encXO a b c oe xo r)
    (kind : ∀ oe, extendedKind (bit1 oe ++ xo).toNat = k) : storageKind i = k :=
  storageKind_extended (word ▸ primary_encXO ..) (word ▸ xo10_encXO ..) (kind oe)

end

theorem storageKind_b (li : BitVec 24) (aa lk : Bool) : storageKind (.b li aa lk) = (false, false, false) := by
  have word : primary (encode (.b li aa lk)) = 18 := by rw [encode, primary_b]
  exact storageKind_primary word (by decide) rfl

theorem storageKind_bc (bo bi : BitVec 5) (bd : BitVec 14) (aa lk : Bool) :
    storageKind (.bc bo bi bd aa lk) = (false, false, false) := by
  have word : primary (encode (.bc bo bi bd aa lk)) = 16 := by rw [encode, primary_bc]
  exact storageKind_primary word (by decide) rfl

theorem storageKind_mtfsf (fm : BitVec 8) (frB : BitVec 5) (rc : Bool) :
    storageKind (.mtfsf fm frB rc) = (false, false, false) := by
  have word : primary (encode (.mtfsf fm frB rc)) = 63 := by rw [encode, primary_mtfsf]
  exact storageKind_primary word (by decide) rfl

/-! ### The type bits (R775) -/

/-- SRR1[3], SRR1[4] and SRR1[10] of a kind. -/
def storageBits (k : Bool × Bool × Bool) : Word :=
  (if k.1 then traceLoad else 0) ||| (if k.2.1 then traceStore else 0) ||| (if k.2.2 then traceString else 0)

/-- The type bits of an instruction: those of its kind, SRR1[11] for a write that R775 e names, SRR1[12] for a taken
branch. -/
def typeBits (s : State) (i : Instr) : Word :=
  storageBits (storageKind i) ||| (if writesMmu i then traceMmu else 0) ||| traceTaken (s.branches i == some true)

/-- A branch accesses no storage and is marked when it is taken. -/
theorem typeBits_branch {taken : Bool} (branch : s.branches i = some taken) (write : writesMmu i = false)
    (kind : storageKind i = (false, false, false)) : typeBits s i = traceTaken taken := by
  rw [typeBits, kind, write, branch]
  cases taken <;> rfl

section
variable (straight : s.branches i = none)
include straight

/-- An instruction that writes no marked register is marked by its kind alone. -/
theorem typeBits_kind {k : Bool × Bool × Bool} (write : writesMmu i = false) (kind : storageKind i = k) :
    typeBits s i = storageBits k := by
  rw [typeBits, kind, write, straight]
  exact BitVec.or_zero.trans BitVec.or_zero

theorem typeBits_load (write : writesMmu i = false) (kind : storageKind i = (true, false, false)) :
    typeBits s i = traceLoad := typeBits_kind straight write kind

theorem typeBits_store (write : writesMmu i = false) (kind : storageKind i = (false, true, false)) :
    typeBits s i = traceStore := typeBits_kind straight write kind

theorem typeBits_none (write : writesMmu i = false) (kind : storageKind i = (false, false, false)) :
    typeBits s i = 0 := typeBits_kind straight write kind

/-- An instruction that accesses no storage is marked if it writes a register that R775 e names. -/
theorem typeBits_write {b : Bool} (write : writesMmu i = b) (kind : storageKind i = (false, false, false)) :
    typeBits s i = if b then traceMmu else 0 := by
  rw [typeBits, kind, write, straight]
  cases b <;> rfl

end

/-- `mtspr` is marked by its SPR number. -/
theorem traceSpr_eq (rS : Reg) (n : BitVec 10) (rc : Bool) :
    traceSpr n.toNat = if writesMmu (.mtspr rS n rc) then traceMmu else 0 := by
  have marked : writesMmu (.mtspr rS n rc) = true ↔ n.toNat = 25 ∨ n.toNat = 282 ∨ n.toNat = 1008 ∨ n.toNat = 1023 ∨
      (528 ≤ n.toNat ∧ n.toNat ≤ 543) := by
    simp [writesMmu, or_assoc]
  exact (if_congr marked rfl rfl).symm

/-- The model marks an instruction as its opcodes do. -/
theorem traceKind_bits (s : State) (i : Instr) : typeBits s i = (traceKind s i).2 := by
  cases i with
  | lbz | lbzu | lhz | lhzu | lha | lhau | lwz | lwzu | lmw | lfs | lfsu | lfd | lfdu =>
    exact typeBits_load rfl rfl (storageKind_primary (primary_encD ..) (by decide) rfl)
  | lbzx | lbzux | lhzx | lhzux | lhax | lhaux | lwzx | lwzux | lhbrx | lwbrx | lswi | lfsx | lfsux | lfdx | lfdux
    | lwarx | eciwx =>
    exact typeBits_load rfl rfl (storageKind_encX31 rfl rfl)
  | stb | stbu | sth | sthu | stw | stwu | stmw | stfs | stfsu | stfd | stfdu =>
    exact typeBits_store rfl rfl (storageKind_primary (primary_encD ..) (by decide) rfl)
  | stbx | stbux | sthx | sthux | stwx | stwux | sthbrx | stwbrx | stswi | stfsx | stfsux | stfdx | stfdux | stfiwx
    | stwcxRec | dcbz | ecowx =>
    exact typeBits_store rfl rfl (storageKind_encX31 rfl rfl)
  | lswx => exact typeBits_kind (k := (true, false, true)) rfl rfl (storageKind_encX31 rfl rfl)
  | stswx => exact typeBits_kind (k := (false, true, true)) rfl rfl (storageKind_encX31 rfl rfl)
  | b => exact typeBits_branch (taken := true) rfl rfl (storageKind_b ..)
  | bc bo bi => exact typeBits_branch (taken := s.branchTaken bo bi) rfl rfl (storageKind_bc ..)
  | bclr bo bi | bcctr bo bi =>
    exact typeBits_branch (taken := s.branchTaken bo bi) rfl rfl (storageKind_primary (primary_encX ..) (by decide) rfl)
  | mtspr rS n rc => exact (typeBits_write rfl rfl (storageKind_encXFX rfl rfl)).trans (traceSpr_eq rS n rc).symm
  | mtsr | mtsrin => exact typeBits_write (b := true) rfl rfl (storageKind_encX31 rfl rfl)
  | addi | addis | addic | addicRec | subfic | mulli | cmpi | cmpli | andiRec | andisRec | ori | oris | xori | xoris
    | twi =>
    exact typeBits_none rfl rfl (storageKind_primary (primary_encD ..) (by decide) rfl)
  | add | subf | addc | subfc | adde | subfe | addme | subfme | addze | subfze | neg | mullw | mulhw | mulhwu | divw
    | divwu =>
    exact typeBits_none rfl rfl (storageKind_encXO rfl (by decide))
  | rlwinm | rlwnm | rlwimi | fadd | fadds | fsub | fsubs | fmul | fmuls | fdiv | fdivs | fres | frsqrte | fsel | fmadd
    | fmadds | fmsub | fmsubs | fnmadd | fnmadds | fnmsub | fnmsubs =>
    exact typeBits_none rfl rfl (storageKind_primary (primary_encA ..) (by decide) rfl)
  | frsp | fctiw | fctiwz | fcmpu | fcmpo | mffs | mcrfs | mtfsfi | mtfsb0 | mtfsb1 | fmr | fneg | fabs | fnabs | crand
    | cror | crxor | crnand | crnor | creqv | crandc | crorc | mcrf | rfi | isync =>
    exact typeBits_none rfl rfl (storageKind_primary (primary_encX ..) (by decide) rfl)
  | mtfsf => exact typeBits_none rfl rfl (storageKind_mtfsf ..)
  | sc => exact typeBits_none rfl rfl (storageKind_primary (p := 17) (by decide) (by decide) rfl)
  | mtcrf | mfspr | mftb => exact typeBits_none rfl rfl (storageKind_encXFX rfl rfl)
  | _ => exact typeBits_none rfl rfl (storageKind_encX31 rfl rfl)

/-! ### The end of an instruction (R735 step 10) -/

/-- What the trace facility calls a branch is one (R775 c). -/
theorem traceKind_branch (s : State) (i : Instr) : (traceKind s i).1 = (s.branches i).isSome := by
  cases i <;> rfl

theorem traced_eq (s : State) (i : Instr) : traced s i =
    ((beBit s.msr 21 && i != .rfi) || (beBit s.msr 22 && (s.branches i).isSome)) := by
  rw [traced, traceKind_branch]
  rfl

/-- `sc`, and in supervisor mode `rfi` and `mtmsr`, complete although they take an exception (R770, R772). -/
theorem completesAnyway_iff : completesAnyway s i = true ↔
    i = .sc ∨ (beBit s.msr 17 = false ∧ (i = .rfi ∨ ∃ r, i = .mtmsr r)) := by
  have supervisor : (!s.msrPR) = true ↔ beBit s.msr 17 = false := by rw [Bool.not_eq_true', State.msrPR]
  cases i with
  | sc | rfi | mtmsr => simp [completesAnyway, supervisor]
  | _ => simp [completesAnyway]

/-- An instruction that took no exception has completed, and is then traced or not. -/
theorem State.complete_of_quiet {t : State} (quiet : t.took = false) : t.complete s i =
    if traced s i then
      ({ t with lastIa := s.pc } : State).takeException 0x00D00 t.pc (0x40000000 ||| (traceKind s i).2)
    else { t with lastIa := s.pc } := if_neg (Bool.eq_false_iff.1 quiet)

theorem State.complete_of_took {t : State} (took : t.took = true) :
    t.complete s i = if completesAnyway s i then { t with lastIa := s.pc } else t := if_pos took

end

/-- Settles O16: an instruction that took no exception completes, and then the trace facility decides; SRR1 by the
opcodes. -/
theorem traceException : Obligations.TraceException := by
  intro s t i done bit tested info
  have test : traced s i = tested := traced_eq s i
  have bits : 0x40000000 ||| (traceKind s i).2 = info := by
    rw [← traceKind_bits]
    simp only [typeBits, storageBits, storageKind, traceTaken, ← BitVec.or_assoc]
    rfl
  refine ⟨fun quiet off => ?_, fun quiet on => ?_, ?_⟩
  · rw [State.complete_of_quiet quiet, test, off, if_neg Bool.false_ne_true]
  · rw [State.complete_of_quiet quiet, test, on, if_pos rfl, bits]
    exact State.tookException_takeException ..
  · intro completes took
    rw [State.complete_of_took took]
    exact ⟨fun does => if_pos (completesAnyway_iff.2 does), fun does => if_neg (mt completesAnyway_iff.1 does)⟩

end Sys2Proof.Machine
end

section
/-! SUPPORT. Proofs/PerformanceMonitor.lean: what the performance monitor does at a boundary (O57). -/

namespace Sys2Proof.Machine

section
variable (s : State) (x : Input) (n : Nat)

/-! ### What counts, and what holds it (R831, R832) -/

/-- The freezes of MMCR0[0:4] by mode, DISCOUNT's and the halt, each a reason not to count (R831). -/
theorem State.pmCounting_iff : s.pmCounting = true ↔
    (beBit s.pm.mmcr0 0 = false ∧ ¬(beBit s.pm.mmcr0 1 = true ∧ beBit s.msr 17 = false) ∧
      ¬(beBit s.pm.mmcr0 2 = true ∧ beBit s.msr 17 = true) ∧ ¬(beBit s.pm.mmcr0 3 = true ∧ beBit s.msr 29 = true) ∧
      ¬(beBit s.pm.mmcr0 4 = true ∧ beBit s.msr 29 = false)) ∧
    s.pm.frozen = false ∧ s.latches.halted = false := by
  simp [State.pmCounting, State.msrPR, State.msrPM, and_assoc, or_iff_not_imp_left]

/-- A negative PMC1 ends the hold of PMCTRIGGER, unless the processor is halted (R832). -/
theorem State.pmRelease_released : s.pmRelease.pm.released = true ↔
    s.pm.released = true ∨ (beBit s.pm.mmcr0 18 = true ∧ s.latches.halted = false ∧ beBit s.pm.pmc1 0 = true) := by
  simp [State.pmRelease, and_right_comm, and_assoc]

/-- A boundary that counts holds PMC2 to PMC4 until PMC1 has been negative or an interrupt was signalled (R832). -/
theorem State.pmRelease_pmHeld (running : s.latches.halted = false) : s.pmRelease.pmHeld = true ↔
    beBit s.pm.mmcr0 18 = true ∧ s.pm.released = false ∧ beBit s.pm.pmc1 0 = false := by
  have held : s.pmRelease.pmHeld = true ↔ beBit s.pm.mmcr0 18 = true ∧ ¬s.pmRelease.pm.released = true := by
    rw [Bool.not_eq_true, ← Bool.not_eq_true', ← Bool.and_eq_true]
    rfl
  rw [held, State.pmRelease_released]
  simp +contextual [running]

/-! ### The counters after a boundary (R833, R838) -/

/-- PMC1 adds where the monitor counts, the others where it counts and they are not held; nothing else changes. -/
theorem State.pmCount_eq : s.pmCount x n =
    let others (old new : Word) : Word := if s.pmCounting = true ∧ ¬s.pmHeld = true then new else old
    { s with
      pm := { s.pm with
        pmc1 := if s.pmCounting then
          s.pm.pmc1 + pmIncrement (s.pm.mmcr0.extractLsb' 6 7).toNat 31 n x.inc1 else s.pm.pmc1
        pmc2 := others s.pm.pmc2 (s.pm.pmc2 + pmIncrement (s.pm.mmcr0.extractLsb' 0 6).toNat 31 n x.inc2)
        pmc3 := others s.pm.pmc3 (s.pm.pmc3 + pmIncrement (s.pm.mmcr1.extractLsb' 27 5).toNat 30 n x.inc3)
        pmc4 := others s.pm.pmc4 (s.pm.pmc4 + pmIncrement (s.pm.mmcr1.extractLsb' 22 5).toNat 30 n x.inc4) } } := by
  unfold State.pmCount
  cases s.pmCounting
  case false => rfl
  case true => cases s.pmHeld <;> rfl

/-- The state of a boundary at which the signal is decided: the counters have counted, the hold may have ended. -/
def State.pmCounted : State := (s.pmRelease.pmCount x n).pmRelease

/-- Up to there MMCR0, MMCR1, the freeze, SIA, SDA and the condition are as they were. -/
theorem State.pmCounted_eq : s.pmCounted x n =
    { s with
      pm := { s.pm with
        pmc1 := (s.pmCounted x n).pm.pmc1
        pmc2 := (s.pmCounted x n).pm.pmc2
        pmc3 := (s.pmCounted x n).pm.pmc3
        pmc4 := (s.pmCounted x n).pm.pmc4
        released := (s.pmCounted x n).pm.released } } := by
  rw [State.pmCounted, State.pmCount_eq]
  rfl

theorem State.pmCounted_pmc1 : (s.pmCounted x n).pm.pmc1 = if s.pmCounting then
    s.pm.pmc1 + pmIncrement (s.pm.mmcr0.extractLsb' 6 7).toNat 31 n x.inc1 else s.pm.pmc1 := by
  rw [State.pmCounted, State.pmCount_eq]
  rfl

theorem State.pmCounted_others (free : s.pmCounting = true ∧ ¬s.pmRelease.pmHeld = true) :
    (s.pmCounted x n).pm.pmc2 = s.pm.pmc2 + pmIncrement (s.pm.mmcr0.extractLsb' 0 6).toNat 31 n x.inc2 ∧
    (s.pmCounted x n).pm.pmc3 = s.pm.pmc3 + pmIncrement (s.pm.mmcr1.extractLsb' 27 5).toNat 30 n x.inc3 ∧
    (s.pmCounted x n).pm.pmc4 = s.pm.pmc4 + pmIncrement (s.pm.mmcr1.extractLsb' 22 5).toNat 30 n x.inc4 := by
  rw [State.pmCounted, State.pmCount_eq]
  exact ⟨if_pos free, if_pos free, if_pos free⟩

theorem State.pmCounted_others_keep (stopped : ¬(s.pmCounting = true ∧ ¬s.pmRelease.pmHeld = true)) :
    (s.pmCounted x n).pm.pmc2 = s.pm.pmc2 ∧ (s.pmCounted x n).pm.pmc3 = s.pm.pmc3 ∧
    (s.pmCounted x n).pm.pmc4 = s.pm.pmc4 := by
  rw [State.pmCounted, State.pmCount_eq]
  exact ⟨if_neg stopped, if_neg stopped, if_neg stopped⟩

/-- The hold ends by a PMC1 that was negative before the boundary or is so after it (R832; log entry 36). -/
theorem State.pmCounted_released : (s.pmCounted x n).pm.released = true ↔ s.pm.released = true ∨
    (beBit s.pm.mmcr0 18 = true ∧ s.latches.halted = false ∧
      (beBit s.pm.pmc1 0 = true ∨ beBit (s.pmCounted x n).pm.pmc1 0 = true)) := by
  have counted : (s.pmRelease.pmCount x n).pm.released = s.pmRelease.pm.released ∧
      (s.pmRelease.pmCount x n).pm.mmcr0 = s.pm.mmcr0 ∧ (s.pmRelease.pmCount x n).latches = s.latches := by
    rw [State.pmCount_eq]
    exact ⟨rfl, rfl, rfl⟩
  obtain ⟨released, mmcr0, latches⟩ := counted
  rw [State.pmCounted, State.pmRelease_released, released, mmcr0, latches, State.pmRelease_released, or_assoc,
    ← and_or_left, ← and_or_left]
  rfl

/-! ### The signal (R840, R846, R847) -/

/-- The interrupt is signalled: ENINT, the condition, and no halt (R840). -/
def State.pmSignals : Bool := beBit s.pm.mmcr0 5 && s.pmCondition n && !s.latches.halted

theorem State.pmBoundary_eq : s.pmBoundary x n =
    if (s.pmCounted x n).pmSignals n then (s.pmCounted x n).pmSignal x else s.pmCounted x n := rfl

/-- The signal changes no counter. -/
theorem State.pmBoundary_counters :
    (s.pmBoundary x n).pm.pmc1 = (s.pmCounted x n).pm.pmc1 ∧ (s.pmBoundary x n).pm.pmc2 = (s.pmCounted x n).pm.pmc2 ∧
    (s.pmBoundary x n).pm.pmc3 = (s.pmCounted x n).pm.pmc3 ∧ (s.pmBoundary x n).pm.pmc4 = (s.pmCounted x n).pm.pmc4 := by
  rw [State.pmBoundary_eq]
  split <;> exact ⟨rfl, rfl, rfl, rfl⟩

theorem State.pmCondition_iff : s.pmCondition n = true ↔ (beBit s.pm.mmcr0 16 = true ∧ beBit s.pm.pmc1 0 = true) ∨
    (beBit s.pm.mmcr0 17 = true ∧ (beBit s.pm.pmc2 0 = true ∨ beBit s.pm.pmc3 0 = true ∨ beBit s.pm.pmc4 0 = true)) ∨
    (beBit s.pm.mmcr0 9 = true ∧ 0 < n) := by
  simp [State.pmCondition, or_assoc]

theorem State.pmSignals_iff :
    s.pmSignals n = true ↔ beBit s.pm.mmcr0 5 = true ∧ s.pmCondition n = true ∧ s.latches.halted = false := by
  simp [State.pmSignals, and_assoc]

theorem State.pmThreshold_iff : s.pmThreshold = true ↔ beBit s.pm.mmcr0 16 = true ∧ beBit s.pm.pmc1 0 = true ∧
    (s.pm.mmcr0.extractLsb' 6 7).toNat ∈ [9, 10, 23, 24] := by
  rw [State.pmThreshold, Bool.and_eq_true, Bool.and_eq_true, List.contains_iff_mem, and_assoc]

/-- SIA and SDA get what the environment sampled at a threshold event (R846, R847). -/
theorem State.pmSignal_sampled (h : s.pmThreshold = true) :
    (s.pmSignal x).pm.sia = x.sampledIa ∧ (s.pmSignal x).pm.sda = x.sampledDa :=
  ⟨if_pos h, if_pos h⟩

/-- SIA gets the last completed instruction at any other (R846). -/
theorem State.pmSignal_lastIa (h : ¬s.pmThreshold = true) : (s.pmSignal x).pm.sia = s.lastIa := if_neg h

end

/-- Settles O57: the counters by what counts and holds them, then the two outcomes of the signal. -/
theorem performanceMonitor : Obligations.PerformanceMonitor := by
  intro s x n m t adds enabled counts held sel1 condition signal threshold
  obtain ⟨only, mmcr1⟩ := State.pmStep_pmBoundary s x n
  obtain ⟨pmc1, pmc2, pmc3, pmc4⟩ := s.pmBoundary_counters x n
  have fields := s.pmCounted_eq x n
  have control : (s.pmCounted x n).pm.mmcr0 = m := congrArg (·.pm.mmcr0) fields
  have latches : (s.pmCounted x n).latches = s.latches := congrArg (·.latches) fields
  have counting : s.pmCounting = true ↔ counts := s.pmCounting_iff
  have free : s.pmCounting = true ∧ ¬s.pmRelease.pmHeld = true ↔ counts ∧ ¬held := by
    rw [counting]
    exact and_congr_right fun ⟨_, _, running⟩ => not_congr (s.pmRelease_pmHeld running)
  have signals : (s.pmCounted x n).pmSignals n = true ↔ signal := by
    rw [State.pmSignals_iff, State.pmCondition_iff, control, latches, ← pmc1, ← pmc2, ← pmc3, ← pmc4]
  have sampled : (s.pmCounted x n).pmThreshold = true ↔ threshold := by
    rw [State.pmThreshold_iff, control, ← pmc1]
  refine ⟨only, mmcr1, fun c => ?_, fun c => ?_, fun c => ?_, fun c => ?_, fun h => ?_, fun h => ?_⟩
  · rw [pmc1, State.pmCounted_pmc1, if_pos (counting.2 c)]
    rfl
  · rw [pmc1, State.pmCounted_pmc1, if_neg (mt counting.1 c)]
  · rw [pmc2, pmc3, pmc4]
    exact s.pmCounted_others x n (free.2 c)
  · rw [pmc2, pmc3, pmc4]
    exact s.pmCounted_others_keep x n (mt free.1 c)
  · have signalled : t = (s.pmCounted x n).pmSignal x := if_pos (signals.2 h)
    have frozen : (s.pmCounted x n).pm.frozen = s.pm.frozen := congrArg (·.pm.frozen) fields
    rw [signalled]
    refine ⟨rfl, ?_, ?_, rfl, fun hit => State.pmSignal_sampled _ x (sampled.2 hit), fun other => ?_⟩
    · exact congrArg (setBeBit · 5 false) control
    · rw [← control, ← frozen]
      rfl
    · exact (State.pmSignal_lastIa _ x (mt sampled.1 other)).trans (congrArg (·.lastIa) fields)
  · have silent : t = s.pmCounted x n := if_neg (mt signals.1 h)
    rw [silent]
    exact ⟨congrArg (·.pm.pending) fields, control, congrArg (·.pm.frozen) fields, congrArg (·.pm.sia) fields,
      congrArg (·.pm.sda) fields, s.pmCounted_released x n⟩

end Sys2Proof.Machine
end

section
/-! SUPPORT. Proofs/ExceptionEntry.lean: the MSR that the entry sequence leaves (O13), and the reset state (O59). -/

namespace Sys2Proof.Machine

/-! ### The MSR after an exception (R736) -/

/-- A bit of the MSR that the entry sequence writes: kept, or ILE in the place of LE. -/
theorem beBit_enter_msr (s : State) (off srr0 info keep copied : Word) (k : Nat) :
    beBit (s.enter off srr0 info keep copied).msr k =
      ((beBit s.msr k && beBit keep k) || (beBit s.msr 15 && decide (k = 31))) := by
  have le : beBit (wordOfBool (beBit s.msr 15)) k = (beBit s.msr 15 && decide (k = 31)) := by
    cases beBit s.msr 15 with
    | false => exact BitVec.getMsbD_zero
    | true => exact beBit_beMask (i := 31) (by decide) k
  rw [State.enter_msr, beBit_or, beBit_and, le]

theorem beBit_enter_cleared (s : State) (off srr0 info copied : Word) {keep : Word} {k : Nat}
    (cleared : beBit keep k = false ∧ k ≠ 31) : beBit (s.enter off srr0 info keep copied).msr k = false := by
  obtain ⟨mask, other⟩ := cleared
  rw [beBit_enter_msr, mask, decide_eq_false other, Bool.and_false, Bool.and_false, Bool.or_false]

theorem beBit_enter_kept (s : State) (off srr0 info copied : Word) {keep : Word} {k : Nat}
    (kept : beBit keep k = true ∧ k ≠ 31) :
    beBit (s.enter off srr0 info keep copied).msr k = beBit s.msr k := by
  obtain ⟨mask, other⟩ := kept
  rw [beBit_enter_msr, mask, decide_eq_false other, Bool.and_true, Bool.and_false, Bool.or_false]

theorem beBit_enter_le (s : State) (off srr0 info copied : Word) {keep : Word} (le : beBit keep 31 = false) :
    beBit (s.enter off srr0 info keep copied).msr 31 = beBit s.msr 15 := by
  rw [beBit_enter_msr, le, decide_eq_true rfl, Bool.and_false, Bool.and_true, Bool.false_or]

/-- A row of Table 4-5: what the entry sequence makes of an MSR whose bits ILE, IP, PM and perhaps ME it keeps. -/
theorem enter_row (s : State) (off srr0 info copied : Word) {keep : Word}
    (cleared : ∀ k ∈ [13, 16, 17, 18, 20, 21, 22, 23, 26, 27, 30], beBit keep k = false ∧ k ≠ 31)
    (kept : ∀ k ∈ [15, 25, 29], beBit keep k = true ∧ k ≠ 31) (le : beBit keep 31 = false) :
    let m := (s.enter off srr0 info keep copied).msr
    (∀ k ∈ [13, 16, 17, 18, 20, 21, 22, 23, 26, 27, 30], beBit m k = false) ∧
    (∀ k ∈ [15, 25, 29], beBit m k = beBit s.msr k) ∧ beBit m 31 = beBit s.msr 15 :=
  ⟨fun k hk => beBit_enter_cleared s _ _ _ _ (cleared k hk), fun k hk => beBit_enter_kept s _ _ _ _ (kept k hk),
    beBit_enter_le s _ _ _ _ le⟩

/-- Settles O13: the entry is the sequence of R736; its MSR is the row of its mask, with ME kept or, after a machine
check, cleared. -/
theorem exceptionEntry : Obligations.ExceptionEntry := by
  intro s off srr0 info c row
  obtain ⟨cleared, kept, le⟩ :=
    enter_row s off srr0 info 0x0000FFFF (keep := 0x00011044) (by decide) (by decide) (by decide)
  have mcRow (srr0 info copied : Word) : row (s.drawWord.2.enter 0x00200 srr0 info 0x00010044 copied) false := by
    obtain ⟨cleared, kept, le⟩ :=
      enter_row s.drawWord.2 0x00200 srr0 info copied (keep := 0x00010044) (by decide) (by decide) (by decide)
    exact ⟨cleared, kept, beBit_enter_cleared _ _ _ _ _ (by decide), le⟩
  exact ⟨s.tookException_takeException off srr0 info, ⟨cleared, kept, beBit_enter_kept s _ _ _ _ (by decide), le⟩,
    mcRow _ _ _⟩

/-- Settles O59: the values are those of `State.reset`, and its invariant holds (`State.reset_inv`). -/
theorem resetState : Obligations.ResetState :=
  ⟨rfl, rfl, rfl, rfl, by decide, by decide, by decide, rfl, rfl, rfl, rfl, rfl, rfl, State.reset_inv⟩

end Sys2Proof.Machine
end

section
/-! SUPPORT. Proofs/UserMode.lean: what an instruction run in user mode leaves of the supervisor state (O60). -/

namespace Sys2Proof.Machine

/-! ### What user mode may not change, through the operations on the state -/

/-- Whether an exception was taken, and the state that user mode may not change. -/
def State.userView (s : State) : Bool × Word × ExcRegs × MmuRegs × CfgRegs × PerfMon × Dword × Word × Latches :=
  (s.took, s.supervisorPart)

section
variable (s : State)

/-- Translating and accessing operands is no matter of user mode. -/
theorem State.userView_storage {s t : State} (h : s.storageStep t) : t.userView = s.userView := by
  obtain ⟨only, -⟩ := h
  unfold State.onlyStorage at only
  rw [only]
  rfl

/-- Either of two states is enough. -/
theorem State.userView_ite {s t u : State} {c : Prop} [Decidable c] (ht : t.userView = s.userView)
    (hu : u.userView = s.userView) : State.userView (if c then t else u) = s.userView := by
  split <;> assumption

@[simp] theorem State.userView_advance : s.advance.userView = s.userView := rfl

@[simp] theorem State.userView_writeGpr (r : Reg) (v : Word) : (s.writeGpr r v).userView = s.userView := rfl

@[simp] theorem State.userView_undefineGpr (r : Reg) : (s.undefineGpr r).userView = s.userView := rfl

@[simp] theorem State.userView_setCrField (n : Nat) (v : BitVec 4) : (s.setCrField n v).userView = s.userView := rfl

@[simp] theorem State.userView_setCa (b : Bool) : (s.setCa b).userView = s.userView := rfl

@[simp] theorem State.userView_logBlockOp (k : BusKind) (w : BitVec 4) (pa : Word) :
    (s.logBlockOp k w pa).userView = s.userView := rfl

@[simp] theorem State.userView_putD (l : DLine) : (s.putD l).userView = s.userView := rfl

@[simp] theorem State.userView_badRecordBit (bad : Bool) : (s.badRecordBit bad).userView = s.userView :=
  State.userView_ite rfl rfl

@[simp] theorem State.userView_recordIf (rc : Bool) (v : Word) : (s.recordIf rc v).userView = s.userView :=
  State.userView_ite rfl rfl

@[simp] theorem State.userView_recordFpIf (rc : Bool) : (s.recordFpIf rc).userView = s.userView :=
  State.userView_ite rfl rfl

@[simp] theorem State.userView_overflowIf (oe ov : Bool) : (s.overflowIf oe ov).userView = s.userView :=
  State.userView_ite rfl rfl

@[simp] theorem State.userView_updateLoad (rD rA : Reg) (ea : Word) : (s.updateLoad rD rA ea).userView = s.userView :=
  State.userView_ite rfl (State.userView_ite rfl rfl)

@[simp] theorem State.userView_updateBase (rA : Reg) (ea : Word) : (s.updateBase rA ea).userView = s.userView :=
  State.userView_ite rfl rfl

@[simp] theorem State.userView_bitOrFree (b : Option Bool) : (s.bitOrFree b).2.userView = s.userView := by
  cases b <;> rfl

@[simp] theorem State.userView_withFloat (single : Bool) (frD : Reg) (r : FpOut) :
    (s.withFloat single frD r).userView = s.userView := by
  have drawn : ((s.bitOrFree r.fr).2.bitOrFree r.fi).2.userView = s.userView := by simp
  unfold State.withFloat
  dsimp only
  split <;> exact drawn

theorem State.userView_withFreeSingle (frD : Reg) (could : Word) :
    (s.withFreeSingle frD could).userView = s.userView := rfl

@[simp] theorem State.userView_withInt (frD : Reg) (r : IntOut) : (s.withInt frD r).userView = s.userView := by
  unfold State.withInt
  split <;> rfl

@[simp] theorem State.userView_writeRegs (l : List Word) : ∀ (s : State) (r : Reg),
    (s.writeRegs r l).userView = s.userView := by
  induction l with
  | nil => exact fun _ _ => rfl
  | cons v t ih => exact fun s r => ih (s.writeGpr r v) (r + 1)

@[simp] theorem State.userView_undefineRegs (k : Nat) : ∀ (s : State) (r : Reg),
    (s.undefineRegs r k).userView = s.userView := by
  induction k with
  | zero => exact fun _ _ => rfl
  | succ k ih => exact fun s r => ih (s.undefineGpr r) (r + 1)

@[simp] theorem State.userView_writeBack (l : DLine) : (s.writeBack l).userView = s.userView :=
  State.userView_storage (s.storageStep_writeBack l)

@[simp] theorem State.userView_zeroBlock (w : BitVec 4) (pa : Word) : (s.zeroBlock w pa).userView = s.userView := by
  unfold State.zeroBlock
  dsimp only
  split
  · exact State.userView_ite rfl rfl
  · rw [State.userView_putD, State.userView_logBlockOp, State.userView_storage (s.storageStep_evictD _)]

@[simp] theorem State.userView_storeBlock (w : BitVec 4) (pa : Word) : (s.storeBlock w pa).userView = s.userView := by
  unfold State.storeBlock
  split
  · exact State.userView_ite (s.userView_writeBack _) rfl
  · rfl

@[simp] theorem State.userView_flushBlock (w : BitVec 4) (pa : Word) : (s.flushBlock w pa).userView = s.userView := by
  unfold State.flushBlock
  split
  · exact State.userView_ite (s.userView_writeBack _) rfl
  · rfl

@[simp] theorem State.userView_icbiBlock (w : BitVec 4) (pa : Word) : (s.icbiBlock w pa).userView = s.userView :=
  State.userView_ite (t := { s with icache := _ }) rfl rfl

end

/-! ### Outcomes -/

/-- A next state of an instruction begun in `s` comes of an exception, or user mode could have changed `s` to it. -/
structure UserEnds (s : State) (r : Result) : Prop where
  ends : ∀ t, r = .next t → (t.took = true ∧ t.msrPR = false ∧ t.msrEE = false) ∨ t.userView = s.userView

section
variable {s u : State}

theorem UserEnds.refused (x : Refusal) : UserEnds s (.refused x) := ⟨fun _ e => by cases e⟩

/-- The instruction has gone on without an exception. -/
theorem UserEnds.next (h : u.userView = s.userView) : UserEnds s (.next u) := ⟨fun _ e => by cases e; exact .inr h⟩

/-- An exception enters supervisor mode with interrupts disabled (R736). -/
theorem UserEnds.exception (u : State) (off srr0 info : Word) : UserEnds s (.next (u.takeException off srr0 info)) :=
  ⟨fun _ e => by
    cases e
    exact .inl ⟨rfl, beBit_enter_cleared u _ _ _ _ (by decide), beBit_enter_cleared u _ _ _ _ (by decide)⟩⟩

theorem UserEnds.ite {c : Prop} [Decidable c] {a b : Result} (ha : UserEnds s a) (hb : UserEnds s b) :
    UserEnds s (if c then a else b) := by
  split <;> assumption

/-- In user mode a privileged instruction is an exception, whatever it would do (R650). -/
theorem UserEnds.supervisorOnly (user : s.msrPR = true) (k : Result) : UserEnds s (s.supervisorOnly k) := by
  unfold State.supervisorOnly
  rw [if_pos user]
  exact .exception ..

theorem UserEnds.needFp {k : Result} (hk : UserEnds s k) : UserEnds s (u.needFp k) := .ite hk (.exception ..)

/-! ### Integer results, branches, traps -/

theorem UserEnds.putResult (h : u.userView = s.userView) (r : Reg) (v : Word) (rc : Bool) :
    UserEnds s (u.putResult r v rc) := .next (by simpa using h)

theorem UserEnds.putSum (r : Reg) (a b : Word) (c carries oe rc : Bool) :
    UserEnds s (s.putSum r a b c carries oe rc) :=
  have carried (b : Bool) : State.userView (if carries then s.setCa b else s) = s.userView :=
    State.userView_ite (s.userView_setCa b) rfl
  .putResult ((State.userView_overflowIf ..).trans (carried _)) ..

theorem UserEnds.putUndefinedQuotient (r : Reg) (q : Word) (c : BitVec 3) (oe rc : Bool) :
    UserEnds s (s.putUndefinedQuotient r q c oe rc) :=
  .next (State.userView_ite (s.userView_overflowIf oe true) (s.userView_overflowIf oe true))

theorem UserEnds.trapIf (met : Bool) : UserEnds s (s.trapIf met) := by
  cases met with
  | false => exact .next rfl
  | true => exact .exception ..

/-! ### Floating point -/

/-- The end of a floating-point instruction is the enabled exception, or goes on (R429, R770). -/
theorem UserEnds.fpDone (h : u.userView = s.userView) (rc : Bool) : UserEnds s (u.fpDone rc) :=
  .ite (.exception ..) (.next ((u.userView_recordFpIf rc).trans h))

theorem UserEnds.putFloat (single : Bool) (frD : Reg) (r : FpOut) (rc : Bool) :
    UserEnds s (s.putFloat single frD r rc) := .fpDone (s.userView_withFloat single frD r) rc

theorem UserEnds.putSingle (frD : Reg) (ops : List Dword) (could : Word) (r : FpOut) (rc : Bool) :
    UserEnds s (s.putSingle frD ops could r rc) := by
  rw [State.putSingle_eq]
  exact .fpDone (State.userView_ite (s.userView_withFreeSingle frD could) (s.userView_withFloat true frD r)) rc

theorem UserEnds.putInt (frD : Reg) (r : IntOut) (rc : Bool) : UserEnds s (s.putInt frD r rc) := by
  rw [State.putInt_eq]
  exact .fpDone (s.userView_withInt frD r) rc

theorem UserEnds.putFloatCompare (n : BitVec 3) (c : BitVec 4) (exc : Word) (rc : Bool) :
    UserEnds s (s.putFloatCompare n c exc rc) := by
  refine .fpDone ?_ false
  split <;> rfl

/-! ### Loads and stores -/

/-- An access ends in an exception, or with what it writes to registers. -/
theorem UserEnds.finishWith {r : Acc} (hr : r.within s) (w : Word) (f : AlignForm) (ea : Word)
    {target : List Byte → State → State} {rest : State → State} {part : List Byte → State → State}
    (htarget : ∀ b u, (target b u).userView = u.userView) (hrest : ∀ u, (rest u).userView = u.userView) :
    UserEnds s (r.finishWith w f ea target rest part) := by
  cases r with
  | ok b u => exact .next ((hrest _).trans ((htarget b u).trans (State.userView_storage hr)))
  | okError | dsi | align => exact .exception ..
  | refuse x => exact .refused x

theorem UserEnds.loadForm {i : Instr} {u : Use} {f : AlignForm} {ea : Word} {n : Nat}
    {put : List Byte → State → State} {rest : State → State} (hput : ∀ b u, (put b u).userView = u.userView)
    (hrest : ∀ u, (rest u).userView = u.userView) : UserEnds s (s.loadForm i u f ea n put rest) :=
  .finishWith (s.loadOperands_within u _) _ f ea (fun _ _ => hput ..) hrest

theorem UserEnds.loadGpr {i : Instr} {u : Use} {f : AlignForm} {ea : Word} {n : Nat} {rD : Reg}
    {value : List Byte → Word} {rest : State → State} (hrest : ∀ u, (rest u).userView = u.userView) :
    UserEnds s (s.loadForm i u f ea n (fun b t => t.writeGpr rD (value b)) rest) :=
  .loadForm (fun _ _ => rfl) hrest

theorem UserEnds.storeForm {i : Instr} {u : Use} {f : AlignForm} {ea : Word} {bs : List Byte} {rest : State → State}
    (hrest : ∀ u, (rest u).userView = u.userView) : UserEnds s (s.storeForm i u f ea bs rest) :=
  .finishWith (s.storeOperands_within u _ _) _ f ea (fun _ _ => rfl) hrest

theorem UserEnds.fpLoadForm {i : Instr} {f : AlignForm} {ea : Word} {n : Nat} {single : Bool} {frD : Reg}
    {value : List Byte → Dword} {rest : State → State} (hrest : ∀ u, (rest u).userView = u.userView) :
    UserEnds s (s.fpLoadForm i f ea n (fun b t => t.putFpr single frD (value b)) rest) :=
  .needFp (.ite (.loadForm (fun _ _ => rfl) hrest) (.exception ..))

theorem UserEnds.fpStoreForm {i : Instr} {f : AlignForm} {ea : Word} {bs : List Byte} {rest : State → State}
    (hrest : ∀ u, (rest u).userView = u.userView) : UserEnds s (s.fpStoreForm i f ea bs rest) :=
  .needFp (.ite (.storeForm hrest) (.exception ..))

theorem UserEnds.loadRegs (i : Instr) (rD : Reg) (ea : Word) (n : Nat) (bad rc : Bool) :
    UserEnds s (s.loadRegs i rD ea n bad rc) :=
  .finishWith (s.loadOperands_within _ _) _ _ ea
    (fun _ _ => State.userView_ite (State.userView_undefineRegs ..) (State.userView_writeRegs ..))
    fun u => u.userView_badRecordBit rc

theorem UserEnds.storeRegs (i : Instr) (f : AlignForm) (rS : Reg) (ea : Word) (n : Nat) (rc : Bool) :
    UserEnds s (s.storeRegs i f rS ea n rc) :=
  .finishWith (s.storeOperands_within _ _ _) _ f ea (fun _ _ => rfl) fun u => u.userView_badRecordBit rc

/-- `lswx` of no bytes writes no register but the undefined rD. -/
theorem UserEnds.execLswx (rD rA rB : Reg) (rc : Bool) : UserEnds s (execLswx rD rA rB rc s) :=
  .ite (.exception ..) (.ite (.next (by simp)) (.loadRegs ..))

/-! ### Storage control -/

theorem UserEnds.withAddress {i : Instr} {f : AlignForm} {x : Use} {ea : Word} {direct : State → Result}
    {k : Word → BitVec 4 → State → Result} (hd : ∀ t, t.userView = s.userView → UserEnds s (direct t))
    (hk : ∀ pa w t, t.userView = s.userView → UserEnds s (k pa w t)) :
    UserEnds s (s.withAddress i f x ea direct k) := by
  have translated := s.storageStep_translate x ea
  unfold State.withAddress
  split <;> rename_i heq <;> rw [heq] at translated
  · exact hk _ _ _ (State.userView_storage translated)
  · exact hd _ (State.userView_storage translated)
  · exact .finishWith (Acc.within_trans translated (failAcc_within _ x ea [] _)) _ f ea (fun _ _ => rfl) fun _ => rfl

theorem UserEnds.execLwarx (rD rA rB : Reg) (rc : Bool) : UserEnds s (execLwarx rD rA rB rc s) := by
  refine .ite (.withAddress (fun _ _ => .exception ..) fun pa w t ht => .next ?_) (.exception ..)
  have loaded := (State.userView_storage (t.storageStep_loadReserved w pa)).trans ht
  rw [State.userView_advance, State.userView_badRecordBit]
  exact loaded

theorem UserEnds.execStwcxRec (rS rA rB : Reg) (rc : Bool) : UserEnds s (execStwcxRec rS rA rB rc s) := by
  refine .ite (.withAddress (fun _ _ => .exception ..) fun pa w t ht => .next ?_) (.exception ..)
  have stored (bs : List Byte) := (State.userView_storage (t.storageStep_storePart w true pa bs)).trans ht
  rw [State.userView_advance, State.userView_badRecordBit, State.userView_setCrField]
  exact State.userView_ite (stored _) ht

theorem UserEnds.touchAddress (ea : Word) : UserEnds s (s.touchAddress ea) := by
  refine .ite (.refused _) (.ite (.refused _) ?_)
  split
  · exact .next rfl
  · rename_i pa w t heq
    have touched : t.userView = s.userView := by
      rw [State.translateTouch_state heq]
      rfl
    exact .next (State.userView_ite
      ((State.userView_storage (t.storageStep_blockForLoad w .read pa pa 0)).trans touched) rfl)

theorem UserEnds.onBlock {i : Instr} {x : Use} {ea : Word} {k : BitVec 4 → Word → State → State}
    (hk : ∀ w pa t, (k w pa t).userView = t.userView) : UserEnds s (s.onBlock i x ea k) :=
  .withAddress (fun _ ht => .next ht) fun pa w t ht => .next ((hk w pa t).trans ht)

theorem UserEnds.external {i : Instr} {x : Use} {ea : Word} {k : Word → State → Result}
    (hk : ∀ pa t, t.userView = s.userView → UserEnds s (k pa t)) : UserEnds s (s.external i x ea k) :=
  .ite (.exception ..) (.ite (.exception ..)
    (.withAddress (fun _ _ => .exception ..) fun pa _ t ht => hk pa t ht))

/-! ### Special registers -/

/-- The special registers that user mode may name are XER, LR and CTR (R660, R662). -/
theorem userSprs_cases {n : BitVec 10} (user : n.getLsbD 4 = false)
    (defined : n.toNat ∈ writableSprs ∨ n.toNat ∈ readableSprs) :
    n.toNat = 1 ∨ n.toNat = 8 ∨ n.toNat = 9 := by
  have all : ∀ k ∈ writableSprs ++ readableSprs, k.testBit 4 = false → k = 1 ∨ k = 8 ∨ k = 9 := by decide
  exact all _ (List.mem_append.2 defined) user

theorem userView_writeSpr (s : State) {k : Nat} (hk : k = 1 ∨ k = 8 ∨ k = 9) (v : Word) :
    (s.writeSpr k v).userView = s.userView := by
  obtain rfl | rfl | rfl := hk <;> rfl

theorem userView_readSpr (s : State) {k : Nat} (hk : k = 1 ∨ k = 8 ∨ k = 9) :
    (s.readSpr k).2.userView = s.userView := by
  obtain rfl | rfl | rfl := hk <;> rfl

/-- In user mode the test of an SPR number passes those with the weight 16 clear only (R662). -/
theorem UserEnds.checkSpr (user : s.msrPR = true) {n : BitVec 10} {l : List Nat} {k : Result}
    (hk : n.getLsbD 4 = false → n.toNat ∈ l → UserEnds s k) :
    UserEnds s (s.checkSpr n (l.contains n.toNat) k) := by
  unfold State.checkSpr
  rw [user, Bool.true_and]
  split
  · exact .exception ..
  next unprivileged =>
    split
    next defined => exact hk (Bool.eq_false_iff.2 unprivileged) (List.contains_iff_mem.1 defined)
    · exact .exception ..

theorem UserEnds.execMtspr (user : s.msrPR = true) (rS : Reg) (n : BitVec 10) (rc : Bool) :
    UserEnds s (execMtspr rS n rc s) :=
  .checkSpr user fun low defined => .next (by
    rw [State.userView_advance, State.userView_badRecordBit]
    exact userView_writeSpr s (userSprs_cases low (.inl defined)) _)

theorem UserEnds.execMfspr (user : s.msrPR = true) (rD : Reg) (n : BitVec 10) (rc : Bool) :
    UserEnds s (execMfspr rD n rc s) :=
  .checkSpr user fun low defined => .next (by
    rw [State.userView_advance, State.userView_badRecordBit, State.userView_writeGpr]
    exact userView_readSpr s (userSprs_cases low (.inr defined)))

/-! ### Every instruction -/

/-- An instruction run in user mode: a privileged one is an exception, the others are the shared operations. -/
theorem UserEnds.exec (user : s.msrPR = true) (i : Instr) : UserEnds s (exec i s) := by
  cases i with
  | rfi | mtmsr | mfmsr | mtsr | mtsrin | mfsr | mfsrin | tlbie | tlbsync | dcbi => exact .supervisorOnly user _
  | mtspr => exact .execMtspr user ..
  | mfspr => exact .execMfspr user ..
  | addi | addis | mulli | mulhw | mulhwu | andiRec | andisRec | ori | oris | xori | xoris | and | or | xor | nand |
  nor | eqv | andc | orc | extsb | extsh | cntlzw | rlwinm | rlwnm | rlwimi | slw | srw =>
    exact .putResult (u := s) rfl ..
  | srawi | sraw => exact .putResult (s.userView_setCa _) ..
  | addic | addicRec | subfic | add | subf | addc | subfc | adde | subfe | addme | subfme | addze | subfze =>
    exact .putSum ..
  | neg | mullw => exact .putResult (s.userView_overflowIf ..) ..
  | divw | divwu => exact .ite (.putUndefinedQuotient ..) (.putResult (s.userView_overflowIf ..) ..)
  | fadd | fsub | fmul | fdiv | fres | frsqrte | fmadd | fmsub | fnmadd | fnmsub | frsp => exact .needFp (.putFloat ..)
  | fadds | fsubs | fmuls | fdivs | fmadds | fmsubs | fnmadds | fnmsubs => exact .needFp (.putSingle ..)
  | fctiw | fctiwz => exact .needFp (.putInt ..)
  | fcmpu | fcmpo => exact .needFp (.putFloatCompare ..)
  | fsel | fmr | fneg | fabs | fnabs | mffs | mcrfs | mtfsfi | mtfsf | mtfsb0 | mtfsb1 =>
    exact .needFp (.fpDone (by rfl) _)
  | lbz | lhz | lha | lwz => exact .loadGpr fun _ => rfl
  | lbzx | lhzx | lhax | lwzx => exact .loadGpr fun u => u.userView_badRecordBit _
  | lhbrx | lwbrx => exact .loadGpr (value := fun b => wordOf b.reverse) fun u => u.userView_badRecordBit _
  | lbzu | lhzu | lhau | lwzu => exact .loadGpr fun u => u.userView_updateLoad ..
  | lbzux | lhzux | lhaux | lwzux =>
    exact .loadGpr fun u => (State.userView_badRecordBit ..).trans (u.userView_updateLoad ..)
  | stb | sth | stw => exact .storeForm fun _ => rfl
  | stbx | sthx | stwx | sthbrx | stwbrx => exact .storeForm fun u => u.userView_badRecordBit _
  | stbu | sthu | stwu => exact .storeForm fun u => u.userView_updateBase ..
  | stbux | sthux | stwux =>
    exact .storeForm fun u => (State.userView_badRecordBit ..).trans (u.userView_updateBase ..)
  | lmw | lswi => exact .ite (.exception ..) (.loadRegs ..)
  | stmw | stswi | stswx => exact .ite (.exception ..) (.storeRegs ..)
  | lswx => exact .execLswx ..
  | lfs | lfd => exact .fpLoadForm fun _ => rfl
  | lfsx | lfdx => exact .fpLoadForm fun u => u.userView_badRecordBit _
  | lfsu | lfdu => exact .fpLoadForm fun u => u.userView_updateBase ..
  | lfsux | lfdux =>
    exact .fpLoadForm fun u => (State.userView_badRecordBit ..).trans (u.userView_updateBase ..)
  | stfs | stfd => exact .fpStoreForm fun _ => rfl
  | stfsx | stfdx => exact .fpStoreForm fun u => u.userView_badRecordBit _
  | stfsu | stfdu => exact .fpStoreForm fun u => u.userView_updateBase ..
  | stfsux | stfdux =>
    exact .fpStoreForm fun u => (State.userView_badRecordBit ..).trans (u.userView_updateBase ..)
  | stfiwx => exact .fpStoreForm fun u => (State.userView_badRecordBit ..).trans (State.userView_ite rfl rfl)
  | bcctr => exact .ite (.next rfl) (.next rfl)
  | twi | tw => exact .trapIf _
  | sc => exact .exception ..
  | mftb => exact .ite (.next rfl) (.ite (.next rfl) (.exception ..))
  | lwarx => exact .execLwarx ..
  | stwcxRec => exact .execStwcxRec ..
  | sync => exact .next (State.userView_badRecordBit ..)
  | cmpi | cmp | cmpli | cmpl | b | bc | bclr | crand | cror | crxor | crnand | crnor | creqv | crandc | crorc | mcrf |
  mtcrf | mcrxr | mfcr | eieio | isync => exact .next rfl
  | dcbt | dcbtst => exact .touchAddress _
  | dcbz => exact .onBlock fun w pa t => t.userView_zeroBlock w pa
  | dcbst => exact .onBlock fun w pa t => t.userView_storeBlock w pa
  | dcbf => exact .onBlock fun w pa t => t.userView_flushBlock w pa
  | icbi => exact .onBlock fun w pa t => t.userView_icbiBlock w pa
  | eciwx => exact .external fun _ _ ht => .next ht
  | ecowx => exact .external fun _ _ ht => .next ht

end

/-- Settles O60: an instruction ends in an exception, or leaves what user mode may not change. -/
theorem userModeKeepsSupervisorState : Obligations.UserModeKeepsSupervisorState := by
  intro i s t user running run
  refine ((UserEnds.exec user i).ends t run).imp_right fun kept => ?_
  obtain ⟨took, part⟩ := Prod.mk.inj kept
  exact ⟨took.trans running, part⟩

end Sys2Proof.Machine
end

section
/-! SUPPORT. Proofs/FpscrMoves.lean: the moves to FPSCR bit by bit (O49). -/

namespace Sys2Proof.Machine

/-! ### The bits that software can write (R461 to R465) -/

/-- A bit of FPSCR that is neither a summary nor reserved. -/
def fpFree (k : Nat) : Prop := k < 32 ∧ k ≠ 1 ∧ k ≠ 2 ∧ k ≠ 20

theorem beBit_fpWritable {k : Nat} (hk : fpFree k) : beBit fpWritable k = true := by
  obtain ⟨inside, others⟩ := hk
  revert others
  interval_cases k <;> decide

theorem fpFree_of_exception {k : Nat} (hk : k < 32) (h : beBit fpExceptions k = true) : fpFree k := by
  revert h
  unfold fpFree
  interval_cases k <;> decide

theorem beBit_zeroWord (k : Nat) : beBit (0 : Word) k = false := BitVec.getMsbD_zero

theorem beBit_onesWord {k : Nat} (hk : k < 32) : beBit (0xFFFFFFFF : Word) k = true :=
  (beBit_ones k).trans (decide_eq_true hk)

/-- The mask of one field. -/
theorem beBit_maskField (n : BitVec 3) (k : Nat) : beBit (setField4 0 n.toNat 0xF) k = (k / 4 == n.toNat) := by
  have ones : (0xF : BitVec 4).getMsbD (k % 4) = true :=
    BitVec.getMsbD_allOnes.trans (decide_eq_true (Nat.mod_lt k (by decide)))
  rw [beBit_setField4 _ n.isLt, ones, beBit_zeroWord]
  by_cases field : k / 4 = n.toNat <;> simp [field]

/-- The low word of a double word. -/
theorem beBit_lowWord (d : Dword) {k : Nat} (hk : k < 32) : beBit (d.setWidth 32 : Word) k = d.getMsbD (32 + k) := by
  rw [beBit, BitVec.getMsbD, BitVec.getMsbD, BitVec.getLsbD_setWidth]
  simp [hk, show 31 - k < 32 by omega, show 32 + k < 64 by omega, show 64 - 1 - (32 + k) = 32 - 1 - k by omega]

theorem any_range_congr {n : Nat} {p q : Nat → Bool} (h : ∀ j < n, p j = q j) :
    (List.range n).any p = (List.range n).any q := by
  rw [Bool.eq_iff_iff, List.any_eq_true, List.any_eq_true]
  refine exists_congr fun j => and_congr_right fun hj => ?_
  rw [h j (List.mem_range.1 hj)]

/-- A word is not 0 exactly if one of its bits is set. -/
theorem ne_zero_eq_any (x : Word) : (x != 0) = (List.range 32).any (beBit x) := by
  rw [Bool.eq_iff_iff, bne_iff_ne, List.any_eq_true]
  constructor
  · intro nonzero
    by_contra none
    refine nonzero (word_ext fun k hk => ?_)
    have clear : beBit x k = false := Bool.eq_false_iff.2 fun set => none ⟨k, List.mem_range.2 hk, set⟩
    exact clear.trans (beBit_zeroWord k).symm
  · rintro ⟨k, -, set⟩ rfl
    exact Bool.false_ne_true ((beBit_zeroWord k).symm.trans set)

/-! ### The word that a move leaves -/

/-- `w` with the bits of `v` that `m` selects and software can write. -/
def fpscrInsert (w m v : Word) : Word := (w &&& ~~~(m &&& fpWritable)) ||| (v &&& m &&& fpWritable)

section
variable (w m v : Word)

theorem beBit_fpscrInsert {k : Nat} (hk : k < 32) : beBit (fpscrInsert w m v) k =
    if beBit m k && beBit fpWritable k then beBit v k else beBit w k := by
  rw [fpscrInsert, beBit_or, beBit_and, beBit_not _ hk, beBit_and, beBit_and, beBit_and]
  cases beBit m k <;> cases beBit fpWritable k <;> simp

theorem beBit_fpscrInsert_free {k : Nat} (hk : fpFree k) : beBit (fpscrInsert w m v) k =
    if beBit m k then beBit v k else beBit w k := by
  rw [beBit_fpscrInsert w m v hk.1, beBit_fpWritable hk, Bool.and_true]

/-- The reserved bit stays. -/
theorem beBit_fpscrInsert_reserved : beBit (fpscrInsert w m v) 20 = beBit w 20 := by
  rw [beBit_fpscrInsert w m v (by decide), show beBit fpWritable 20 = false by decide, Bool.and_false]
  exact if_neg Bool.false_ne_true

/-- An exception bit goes from 0 to 1: it is selected, was 0, and the value has it (R428). -/
theorem fpscrInsert_raises : (fpscrInsert w m v &&& ~~~w &&& fpExceptions != 0) =
    (List.range 32).any fun j => beBit m j && beBit fpExceptions j && !beBit w j && beBit v j := by
  rw [ne_zero_eq_any]
  refine any_range_congr fun j inside => ?_
  rw [beBit_and, beBit_and, beBit_not _ inside]
  cases exception : beBit fpExceptions j with
  | false => simp
  | true =>
    rw [beBit_fpscrInsert_free w m v (fpFree_of_exception inside exception)]
    cases beBit m j <;> cases beBit w j <;> simp

/-- A move that does not settle writes the selected bits. -/
theorem beBit_fpSummary_insert {k : Nat} (hk : fpFree k) : beBit (fpSummary (fpscrInsert w m v)) k =
    if beBit m k then beBit v k else beBit w k := by
  rw [← beBit_fpscrInsert_free w m v hk]
  obtain ⟨-, fex, vx, -⟩ := hk
  exact beBit_fpSummary _ _ fex vx

/-- One that settles sets FX too, if it raises an exception bit. -/
theorem beBit_fpSettle_insert {k : Nat} (hk : fpFree k) : beBit (fpSettle w (fpscrInsert w m v)) k =
    ((if beBit m k then beBit v k else beBit w k) || (k == 0 && (List.range 32).any fun j =>
      beBit m j && beBit fpExceptions j && !beBit w j && beBit v j)) := by
  rw [← beBit_fpscrInsert_free w m v hk, ← fpscrInsert_raises]
  obtain ⟨inside, fex, vx, -⟩ := hk
  by_cases fx : k = 0
  · subst fx
    exact beBit_fpSettle_zero ..
  · rw [beBit_fpSettle _ _ (by omega), beq_false_of_ne fx, Bool.false_and, Bool.or_false]

/-- `mtfsb1` is a move of ones. -/
theorem or_writable_eq_insert : w ||| (m &&& fpWritable) = fpscrInsert w m 0xFFFFFFFF := by
  refine word_ext fun k hk => ?_
  rw [beBit_fpscrInsert w m _ hk, beBit_onesWord hk, beBit_or, beBit_and]
  cases beBit m k && beBit fpWritable k <;> simp

end

/-- `mcrfs` clears FX and the exception bits of its field (R461). -/
theorem beBit_fpSummary_clear (w : Word) (crfS : BitVec 3) {k : Nat} (hk : k < 32) (fex : k ≠ 1) (vx : k ≠ 2) :
    beBit (fpSummary (w &&& ~~~(fpSticky &&& setField4 0 crfS.toNat 0xF))) k =
      (beBit w k && !(k / 4 == crfS.toNat && beBit fpSticky k)) := by
  rw [beBit_fpSummary _ _ fex vx, beBit_and, beBit_not _ hk, beBit_and, beBit_maskField,
    Bool.and_comm (beBit fpSticky k)]

/-! ### The moves, one by one -/

/-- `t` is `s` after a move that gives the bits `sel` of FPSCR the values `v` (R429). -/
def State.movedFpscr (s t : State) (rc : Bool) (sel v : Nat → Bool) : Prop :=
  t = { s with fpscr := t.fpscr, cr := t.cr, pc := s.pc + 4 } ∧
  t.cr = (if rc then setField4 s.cr 1 (getField4 t.fpscr 0) else s.cr) ∧ fpSummarized t.fpscr ∧
  beBit t.fpscr 20 = beBit s.fpscr 20 ∧
  ∀ k, fpFree k → beBit t.fpscr k = if sel k then v k else beBit s.fpscr k

section
variable {s : State} (quiet : s.fpQuiet)
include quiet

/-- The completion of a move that leaves the word `w`, no enabled exception being possible. -/
theorem State.fpscrMove_done {i : Instr} {w : Word} {rc : Bool} {sel v : Nat → Bool}
    (run : exec i s = s.needFp (State.fpDone { s with fpscr := w } rc)) (summaries : fpSummarized w)
    (reserved : beBit w 20 = beBit s.fpscr 20)
    (bits : ∀ k, fpFree k → beBit w k = if sel k then v k else beBit s.fpscr k) :
    ∃ t, exec i s = .next t ∧ s.movedFpscr t rc sel v := by
  rw [run, State.needFp_on quiet.1, fpDone_quiet (s := { s with fpscr := w }) quiet]
  exact ⟨_, rfl, rfl, rfl, summaries, reserved, bits⟩

/-- The moves that do not settle: `mtfsfi`, `mtfsb0`, and `mtfsf` with field 0 selected. -/
theorem State.putFpscr_plain {i : Instr} {m v : Word} {rc : Bool} {sel val : Nat → Bool}
    (run : exec i s = s.needFp (s.putFpscr m v false rc))
    (bits : ∀ k < 32, (if beBit m k then beBit v k else beBit s.fpscr k) = if sel k then val k else beBit s.fpscr k) :
    ∃ t, exec i s = .next t ∧ s.movedFpscr t rc sel val := by
  refine State.fpscrMove_done quiet run (fpSummarized_fpSummary _) ?_ fun k hk => ?_
  · exact (beBit_fpSummary _ _ (by decide) (by decide)).trans (beBit_fpscrInsert_reserved ..)
  · exact (beBit_fpSummary_insert _ _ _ hk).trans (bits k hk.1)

/-- Those that settle: `mtfsb1`, and `mtfsf` with field 0 not selected. -/
theorem State.putFpscr_settling {i : Instr} {m v : Word} {rc : Bool} {sel val : Nat → Bool}
    (run : exec i s = s.needFp (State.fpDone { s with fpscr := fpSettle s.fpscr (fpscrInsert s.fpscr m v) } rc))
    (bits : ∀ k < 32, ((if beBit m k then beBit v k else beBit s.fpscr k) || (k == 0 && (List.range 32).any fun j =>
      beBit m j && beBit fpExceptions j && !beBit s.fpscr j && beBit v j)) =
      if sel k then val k else beBit s.fpscr k) :
    ∃ t, exec i s = .next t ∧ s.movedFpscr t rc sel val := by
  refine State.fpscrMove_done quiet run (fpSummarized_fpSettle _ _) ?_ fun k hk => ?_
  · exact (beBit_fpSettle _ _ (by decide)).trans (beBit_fpscrInsert_reserved ..)
  · exact (beBit_fpSettle_insert _ _ _ hk).trans (bits k hk.1)

/-- `mtfsfi` moves the immediate to a field (R462). -/
theorem exec_mtfsfi_spec (crfD : BitVec 3) (imm : BitVec 4) (rc : Bool) :
    ∃ t, exec (.mtfsfi crfD imm rc) s = .next t ∧
      s.movedFpscr t rc (fun k => k / 4 == crfD.toNat) fun k => imm.getMsbD (k % 4) := by
  refine State.putFpscr_plain quiet rfl fun k _ => ?_
  rw [beBit_maskField, beBit_setField4 _ crfD.isLt]
  by_cases field : k / 4 = crfD.toNat <;> simp [field]

/-- `mtfsf` moves the low word of frB to the selected fields (R463; log entry 54). -/
theorem exec_mtfsf_spec (fm : BitVec 8) (frB : Reg) (rc : Bool) :
    ∃ t, exec (.mtfsf fm frB rc) s = .next t ∧ s.movedFpscr t rc
      (fun k => fm.getMsbD (k / 4) || (k == 0 && (List.range 32).any fun j =>
        fm.getMsbD (j / 4) && beBit fpExceptions j && !beBit s.fpscr j && (s.readFpr frB).getMsbD (32 + j)))
      fun k => if fm.getMsbD (k / 4) then (s.readFpr frB).getMsbD (32 + k) else true := by
  have run : exec (.mtfsf fm frB rc) s =
      s.needFp (s.putFpscr (fieldMask fm) ((s.readFpr frB).setWidth 32) (!fm.getMsbD 0) rc) := rfl
  cases moved : fm.getMsbD 0 with
  | true =>
    rw [moved] at run
    refine State.putFpscr_plain quiet run fun k hk => ?_
    rw [beBit_fieldMask fm hk, beBit_lowWord _ hk]
    cases field : fm.getMsbD (k / 4) with
    | true => rfl
    | false =>
      have other : k ≠ 0 := by rintro rfl; exact Bool.false_ne_true (field.symm.trans moved)
      simp [other]
  | false =>
    rw [moved] at run
    refine State.putFpscr_settling quiet run fun k hk => ?_
    rw [any_range_congr fun j hj => by rw [beBit_fieldMask fm hj, beBit_lowWord _ hj],
      beBit_fieldMask fm hk, beBit_lowWord _ hk]
    cases field : fm.getMsbD (k / 4) with
    | true =>
      have other : k ≠ 0 := by rintro rfl; exact Bool.false_ne_true (moved.symm.trans field)
      simp [other]
    | false =>
      rw [Bool.false_or, if_neg Bool.false_ne_true]
      cases raises : k == 0 && _
      · exact Bool.or_false _
      · exact Bool.or_true _

/-- `mtfsb0` clears a bit (R464). -/
theorem exec_mtfsb0_spec (d : BitVec 5) (rc : Bool) :
    ∃ t, exec (.mtfsb0 d rc) s = .next t ∧ s.movedFpscr t rc (fun k => k == d.toNat) fun _ => false := by
  refine State.putFpscr_plain quiet rfl fun k _ => ?_
  rw [beBit_beMask d.isLt, beBit_zeroWord]
  rfl

/-- `mtfsb1` sets a bit, and FX with a new exception bit (R465). -/
theorem exec_mtfsb1_spec (d : BitVec 5) (rc : Bool) :
    ∃ t, exec (.mtfsb1 d rc) s = .next t ∧ s.movedFpscr t rc
      (fun k => k == d.toNat || (k == 0 && !beBit s.fpscr d.toNat && beBit fpExceptions d.toNat)) fun _ => true := by
  have run : exec (.mtfsb1 d rc) s = s.needFp (State.fpDone { s with
      fpscr := fpSettle s.fpscr (s.fpscr ||| (beMask d.toNat &&& fpWritable)) } rc) := rfl
  rw [or_writable_eq_insert] at run
  refine State.putFpscr_settling quiet run fun k hk => ?_
  have raises : ((List.range 32).any fun j =>
      beBit (beMask d.toNat) j && beBit fpExceptions j && !beBit s.fpscr j && beBit (0xFFFFFFFF : Word) j) =
      (!beBit s.fpscr d.toNat && beBit fpExceptions d.toNat) := by
    have inside := d.isLt
    rw [any_range_congr fun j hj => by rw [beBit_beMask inside, beBit_onesWord hj, Bool.and_true], Bool.eq_iff_iff]
    simp [inside, and_assoc, and_comm]
  rw [raises, beBit_beMask d.isLt, beBit_onesWord hk, ← Bool.and_assoc]
  by_cases named : k = d.toNat
  · simp [named]
  · simp only [named, decide_false, beq_false_of_ne named, Bool.false_or, Bool.false_eq_true, if_false]
    cases k == 0 && !beBit s.fpscr d.toNat && beBit fpExceptions d.toNat
    · exact Bool.or_false _
    · exact Bool.or_true _

/-- `mcrfs` copies a field to CR and clears its exception bits (R461). -/
theorem exec_mcrfs_spec (crfD crfS : BitVec 3) : ∃ t, exec (.mcrfs crfD crfS) s = .next t ∧
    t = { s with fpscr := t.fpscr, cr := t.cr, pc := s.pc + 4 } ∧
    s.crFieldIs t crfD (beBit s.fpscr (4 * crfS.toNat)) (beBit s.fpscr (4 * crfS.toNat + 1))
      (beBit s.fpscr (4 * crfS.toNat + 2)) (beBit s.fpscr (4 * crfS.toNat + 3)) ∧
    fpSummarized t.fpscr ∧ beBit t.fpscr 20 = beBit s.fpscr 20 ∧
    ∀ k, fpFree k → beBit t.fpscr k = (beBit s.fpscr k && !(k / 4 == crfS.toNat && beBit fpSticky k)) := by
  have run : exec (.mcrfs crfD crfS) s = s.needFp (State.fpDone { s with
      cr := setField4 s.cr crfD.toNat (getField4 s.fpscr crfS.toNat)
      fpscr := fpSummary (s.fpscr &&& ~~~(fpSticky &&& setField4 0 crfS.toNat 0xF)) } false) := rfl
  have completes (c w : Word) : State.fpDone { s with cr := c, fpscr := w } false =
      .next { s with cr := c, fpscr := w, pc := s.pc + 4 } :=
    fpDone_quiet (s := { s with cr := c, fpscr := w }) quiet false
  have copied := State.crFieldIs_setCrField (s := s) (u := s) rfl crfD (beBit s.fpscr (4 * crfS.toNat))
    (beBit s.fpscr (4 * crfS.toNat + 1)) (beBit s.fpscr (4 * crfS.toNat + 2)) (beBit s.fpscr (4 * crfS.toNat + 3))
  rw [← getField4_eq_crBits] at copied
  rw [run, State.needFp_on quiet.1, completes]
  refine ⟨_, rfl, rfl, copied, fpSummarized_fpSummary _, ?_, fun k hk => ?_⟩
  · rw [beBit_fpSummary_clear _ _ (by decide) (by decide) (by decide), show beBit fpSticky 20 = false by decide,
      Bool.and_false]
    exact Bool.and_true _
  · obtain ⟨inside, fex, vx, -⟩ := hk
    exact beBit_fpSummary_clear _ _ inside fex vx

end

/-- Settles O49: each of the five by its lemma. -/
theorem fpscrMoves : Obligations.FpscrMoves := by
  intro s crfD crfS imm fm frB d rc quiet w free done
  exact ⟨exec_mtfsfi_spec quiet crfD imm rc, exec_mtfsf_spec quiet fm frB rc, exec_mtfsb0_spec quiet d rc,
    exec_mtfsb1_spec quiet d rc, exec_mcrfs_spec quiet crfD crfS⟩

end Sys2Proof.Machine
end

section
/-! SUPPORT. Proofs/SprFrames.lean: what reads and writes of the special registers leave (O21). -/

namespace Sys2Proof.Machine

section
variable (s : State)

/-! ### Reads -/

/-- A read of a register other than SIA and SDA draws no free value. -/
theorem readSpr_state {n : Nat} (sia : n ≠ 955) (sda : n ≠ 959) : (s.readSpr n).2 = s := by
  unfold State.readSpr
  split
  case h_19 => exact absurd rfl sia
  case h_23 => exact absurd rfl sda
  all_goals rfl

/-- SIA and SDA read as a free value while MMCR0[ENINT] = 1 (R846, R847; log entry 36). -/
theorem readSpr_sia : (s.readSpr 955).1 = if beBit s.pm.mmcr0 5 then Config.freeWord s.fresh else s.pm.sia :=
  apply_ite Prod.fst ..

theorem readSpr_sda : (s.readSpr 959).1 = if beBit s.pm.mmcr0 5 then Config.freeWord s.fresh else s.pm.sda :=
  apply_ite Prod.fst ..

/-! ### What a write leaves -/

/-- A write of a special register changes these fields at most. -/
def State.onlySprs (s t : State) : Prop :=
  t = { s with
    xer := t.xer, lr := t.lr, ctr := t.ctr, tb := t.tb, dec := t.dec, exc := t.exc, mmu := t.mmu, cfg := t.cfg
    pm := t.pm, icache := t.icache, dcache := t.dcache, latches := t.latches, fresh := t.fresh }

theorem onlySprs_writeSpr (n : Nat) (v : Word) : s.onlySprs (s.writeSpr n v) := by
  unfold State.writeSpr
  split
  case h_18 => unfold State.writeMmcr0; dsimp only; split <;> rfl
  case h_31 => split <;> rfl
  all_goals rfl

/-! ### Two different BAT registers (R205, R206) -/

/-- Two BAT registers of one array that share a pair are its two words. -/
theorem batWords_of_samePair : ∀ {k j : BitVec 3}, k ≠ j → k.extractLsb' 1 2 = j.extractLsb' 1 2 →
    k.getLsbD 0 = !j.getLsbD 0 := by
  decide

theorem readBat_writeBat_other (a : Vector Bat 4) (mask v : Word) {k j : BitVec 3} (other : k ≠ j) :
    readBat (writeBat a mask k v) j = readBat a j := by
  by_cases pair : k.extractLsb' 1 2 = j.extractLsb' 1 2
  · simp only [readBat, writeBat, ← pair, Vector.getElem_set_self, batWords_of_samePair other pair]
    cases j.getLsbD 0 <;> rfl
  · have apart : (k.extractLsb' 1 2).toNat ≠ (j.extractLsb' 1 2).toNat := fun e => pair (BitVec.eq_of_toNat_eq e)
    simp only [readBat, writeBat, Vector.getElem_set_ne _ _ apart]

/-- A register that is no BAT does not look at the BATs. -/
theorem readSpr_withBats (ibat dbat : Vector Bat 4) {m : Nat} (hm : m ∈ readableSprs) (noBat : ¬(528 ≤ m ∧ m < 544)) :
    (State.readSpr { s with mmu := { s.mmu with ibat := ibat, dbat := dbat } } m).1 = (s.readSpr m).1 := by
  obtain h | h | h | bat | rfl | h := readableSprs_cases hm
  case inr.inr.inr.inl => exact absurd bat noBat
  case inr.inr.inr.inr.inl => rfl
  case inr.inr.inr.inr.inr =>
    fin_cases h
    · exact (readSpr_sia _).trans (readSpr_sia s).symm
    · exact (readSpr_sda _).trans (readSpr_sda s).symm
  all_goals fin_cases h <;> rfl

/-- A BAT register is written: every other register reads as before. -/
theorem readSpr_writeSpr_batOther (v : Word) {n m : Nat} (bat : 528 ≤ n ∧ n < 544) (hm : m ∈ readableSprs)
    (other : n ≠ m) : ((s.writeSpr n v).readSpr m).1 = (s.readSpr m).1 := by
  obtain ⟨low, high⟩ := bat
  have apart (h : n / 8 = m / 8) : BitVec.ofNat 3 n ≠ BitVec.ofNat 3 m := fun e => by
    have residues := congrArg BitVec.toNat e
    rw [BitVec.toNat_ofNat, BitVec.toNat_ofNat] at residues
    omega
  by_cases read : 528 ≤ m ∧ m < 544
  · obtain ⟨low', high'⟩ := read
    by_cases instr : n < 536 <;> by_cases instr' : m < 536
    · rw [writeSpr_ibat s v low instr, readSpr_ibat _ low' instr', readSpr_ibat _ low' instr']
      exact readBat_writeBat_other _ _ _ (apart (by omega))
    · rw [writeSpr_ibat s v low instr, readSpr_dbat _ (by omega) high', readSpr_dbat _ (by omega) high']
    · rw [writeSpr_dbat s v (by omega) high, readSpr_ibat _ low' instr', readSpr_ibat _ low' instr']
    · rw [writeSpr_dbat s v (by omega) high, readSpr_dbat _ (by omega) high', readSpr_dbat _ (by omega) high']
      exact readBat_writeBat_other _ _ _ (apart (by omega))
  · by_cases instr : n < 536
    · rw [writeSpr_ibat s v low instr]
      exact readSpr_withBats s _ s.mmu.dbat hm read
    · rw [writeSpr_dbat s v (by omega) high]
      exact readSpr_withBats s s.mmu.ibat _ hm read

/-! ### Two different registers -/

/-- The writable registers but for the BATs and MMCR0. -/
def fieldSprs : List Nat := wholeSprs ++ maskedSprs ++ [284, 285, 287, 955, 959, 1009]

theorem writableSprs_cases {n : Nat} (hn : n ∈ writableSprs) : n ∈ fieldSprs ∨ n = 952 ∨ (528 ≤ n ∧ n < 544) := by
  revert n
  decide

/-- Each of them is a field of its own: a read of another number looks at another field. Of SIA and SDA it also looks at
MMCR0 and the count of free values, which none of them is. -/
theorem readSpr_writeSpr_fieldOther (v : Word) {n m : Nat} (hn : n ∈ fieldSprs) (other : n ≠ m) :
    ((s.writeSpr n v).readSpr m).1 = (s.readSpr m).1 := by
  by_cases sia : m = 955
  · subst sia
    rw [readSpr_sia, readSpr_sia]
    fin_cases hn <;> try contradiction
    all_goals rfl
  by_cases sda : m = 959
  · subst sda
    rw [readSpr_sda, readSpr_sda]
    fin_cases hn <;> try contradiction
    all_goals rfl
  unfold State.readSpr
  fin_cases hn <;> split <;> try contradiction
  all_goals rfl

theorem readSpr_writeSpr_other (v : Word) {n m : Nat} (hn : n ∈ writableSprs) (hm : m ∈ readableSprs) (other : n ≠ m)
    (mmcr0 : n ≠ 952) : ((s.writeSpr n v).readSpr m).1 = (s.readSpr m).1 := by
  obtain field | control | bat := writableSprs_cases hn
  · exact readSpr_writeSpr_fieldOther s v field other
  · exact absurd control mmcr0
  · exact readSpr_writeSpr_batOther s v bat hm other

end

/-- Settles O21: a read leaves the state, a write only the special registers and the caches, and HID0 what it says. -/
theorem sprFrames : Obligations.SprFrames := by
  refine ⟨⟨fun s rD n permitted hn sia sda => ?_, fun s v n hn => ?_⟩, fun s v => ?_⟩
  · have state : (s.readSpr n.toNat).2 = s := readSpr_state s sia sda
    refine ⟨(s.readSpr n.toNat).1, Prod.ext rfl state, ?_⟩
    rw [exec_mfspr_permitted permitted hn, state]
    rfl
  · have only := onlySprs_writeSpr s n v
    exact ⟨fun m hm other mmcr0 => readSpr_writeSpr_other s v hn hm other mmcr0, congrArg (·.gpr) only,
      congrArg (·.fpr) only, congrArg (·.cr) only, congrArg (·.mem) only, congrArg (·.msr) only,
      congrArg (·.fpscr) only⟩
  · have reads (k : Nat) (hk : beBit hid0Mask k = false) : beBit (v &&& hid0Mask) k = false := by
      rw [beBit_and, hk, Bool.and_false]
    exact ⟨rfl, rfl, reads 20 (by decide), reads 21 (by decide), rfl⟩

end Sys2Proof.Machine
end
